-- ==== Sys2Proof/Word.lean ====
section
/-! DEFINITION. The words of the coordinator: bytes of frames, wrapping counters, notice sets.
Everything the manual only counts or measures is a `Nat` or an `Int`. -/
namespace Sys2Proof

/-- One byte of a frame (R164). -/
abbrev Byte := BitVec 8

/-- A 16-bit word: the wrapping counters (R8, R130) and the CRC (R165). -/
abbrev Word16 := BitVec 16

/-- A set of notice kinds, bit `k` for kind `k` of R186. -/
abbrev NoticeSet := BitVec 16

end Sys2Proof
end

