-- ==== Sys2Proof/Syntax.lean ====
section
/-! DEFINITION. The commands of the coordinator: one constructor of `Instr` per row of
spec/opcode_table.json, and the small types of their operands. -/
namespace Sys2Proof

/-- The three serial ports (00_scope, "Ports and lines"). -/
inductive Port where
  | line | dryer | chill
deriving DecidableEq, Repr

/-- The four web-break detectors (R109). -/
inductive Detector where
  | brk0 | brk1 | brk2 | brk3
deriving DecidableEq, Repr

/-- A sampled logic level. -/
inductive Level where
  | low | high
deriving DecidableEq, Repr

/-- The pair of levels on ENC_A and ENC_B (R30). -/
structure EncPair where
  a : Level
  b : Level
deriving DecidableEq, Repr

/-- The levels on the input lines at the instant a reset ends (R30, R101, R110). -/
structure InputLines where
  enc : EncPair
  estop : Level
  brk0 : Level
  brk1 : Level
  brk2 : Level
  brk3 : Level
deriving DecidableEq, Repr

/-- Kind and zone of a change (R125): the kind fixes the owner port, so this is the key of a change. -/
inductive ChangeKey where
  | speed
  | exhaust
  | zone (z : Nat)
  | chill (c : Nat)
deriving DecidableEq, Repr

/-- What the receiver takes when a stop bit is sampled (R164): a byte, or a byte with a framing
error, whose data is not used. -/
inductive RxByte where
  | data (b : Byte)
  | framingError
deriving DecidableEq, Repr

/-- The requests of the catalogue (R170), in the order of R185. -/
inductive Request where
  | ping | statusRead | zoneRead | ringRead | logRead | logRelease | noticeRead | noticeMap
  | lossAction | changeCancel
  | profileOpen | profileWrite | profileRead | profileCommit | profileAbandon | restart
  | speedRamp | impressionOn | impressionOff | solventCharge | jobTag | detectorSet | breakClear
  | safeClear
  | zoneReport | zoneSetpoint | exhaustTarget | purgeStart | coolDown
  | chillReport | chillSetpoint
deriving DecidableEq, Repr

/-- The commands. A request's command is the valid frame of that kind, taken on port `p` with
payload `pl` at the instant its second CRC byte is taken (R167); log 1. -/
inductive Instr where
  | reset (lines : InputLines)
  | forwardPulse
  | reversePulse
  | encoderDoubleChange
  | stallTimerExpiry
  | dwellTimerExpiry
  | pwmPeriodStart
  | purgeTimerExpiry
  | stallGraceExpiry
  | excessTimerExpiry
  | settleTimerExpiry
  | waitingTimerExpiry (key : ChangeKey)
  | windowTimerExpiry (p : Port)
  | gapTimerExpiry (p : Port)
  | badFrame (p : Port) (rx : RxByte)
  | unknownKind (p : Port) (kind : Byte) (pl : List Byte)
  | replyTransmissionEnd (p : Port)
  | notePulseEnd (p : Port)
  | estopActivation
  | estopRelease
  | detectorLevelChange (d : Detector) (level : Level)
  | ping (p : Port) (pl : List Byte)
  | statusRead (p : Port) (pl : List Byte)
  | zoneRead (p : Port) (pl : List Byte)
  | ringRead (p : Port) (pl : List Byte)
  | logRead (p : Port) (pl : List Byte)
  | logRelease (p : Port) (pl : List Byte)
  | noticeRead (p : Port) (pl : List Byte)
  | noticeMap (p : Port) (pl : List Byte)
  | lossAction (p : Port) (pl : List Byte)
  | changeCancel (p : Port) (pl : List Byte)
  | profileOpen (p : Port) (pl : List Byte)
  | profileWrite (p : Port) (pl : List Byte)
  | profileRead (p : Port) (pl : List Byte)
  | profileCommit (p : Port) (pl : List Byte)
  | profileAbandon (p : Port) (pl : List Byte)
  | restart (p : Port) (pl : List Byte)
  | speedRamp (p : Port) (pl : List Byte)
  | impressionOn (p : Port) (pl : List Byte)
  | impressionOff (p : Port) (pl : List Byte)
  | solventCharge (p : Port) (pl : List Byte)
  | jobTag (p : Port) (pl : List Byte)
  | detectorSet (p : Port) (pl : List Byte)
  | breakClear (p : Port) (pl : List Byte)
  | safeClear (p : Port) (pl : List Byte)
  | zoneReport (p : Port) (pl : List Byte)
  | zoneSetpoint (p : Port) (pl : List Byte)
  | exhaustTarget (p : Port) (pl : List Byte)
  | purgeStart (p : Port) (pl : List Byte)
  | coolDown (p : Port) (pl : List Byte)
  | chillReport (p : Port) (pl : List Byte)
  | chillSetpoint (p : Port) (pl : List Byte)
  | byteReceived (p : Port) (rx : RxByte)
deriving DecidableEq, Repr

end Sys2Proof
end

