-- ==== Sys2Proof/Decode.lean ====
section
/-! DEFINITION. What the bits of a command spell: the kind codes of the requests (R185), and the
decoder over the rows of spec/opcode_table.json that give bits (there is none). -/
namespace Sys2Proof

/-- The kind code of a request (R185). -/
def Request.code : Request → Byte
  | .ping => 0x01
  | .statusRead => 0x02
  | .zoneRead => 0x03
  | .ringRead => 0x04
  | .logRead => 0x05
  | .logRelease => 0x06
  | .noticeRead => 0x07
  | .noticeMap => 0x08
  | .lossAction => 0x09
  | .changeCancel => 0x0A
  | .profileOpen => 0x10
  | .profileWrite => 0x11
  | .profileRead => 0x12
  | .profileCommit => 0x13
  | .profileAbandon => 0x14
  | .restart => 0x15
  | .speedRamp => 0x20
  | .impressionOn => 0x21
  | .impressionOff => 0x22
  | .solventCharge => 0x23
  | .jobTag => 0x24
  | .detectorSet => 0x25
  | .breakClear => 0x26
  | .safeClear => 0x27
  | .zoneReport => 0x30
  | .zoneSetpoint => 0x31
  | .exhaustTarget => 0x32
  | .purgeStart => 0x33
  | .coolDown => 0x34
  | .chillReport => 0x40
  | .chillSetpoint => 0x41

/-- Every request, in the order of R185. -/
def allRequests : List Request :=
  [.ping, .statusRead, .zoneRead, .ringRead, .logRead, .logRelease, .noticeRead, .noticeMap,
   .lossAction, .changeCancel] ++
  [.profileOpen, .profileWrite, .profileRead, .profileCommit, .profileAbandon, .restart] ++
  [.speedRamp, .impressionOn, .impressionOff, .solventCharge, .jobTag, .detectorSet, .breakClear,
   .safeClear] ++
  [.zoneReport, .zoneSetpoint, .exhaustTarget, .purgeStart, .coolDown, .chillReport,
   .chillSetpoint]

/-- The request a kind byte names; none for every other kind, reply kinds included (R167). -/
def requestOf (kind : Byte) : Option Request :=
  allRequests.find? (fun r => r.code == kind)

/-- The command of a valid frame of kind `r` on port `p` with payload `pl`. -/
def requestInstr (r : Request) (p : Port) (pl : List Byte) : Instr :=
  match r with
  | .ping => .ping p pl
  | .statusRead => .statusRead p pl
  | .zoneRead => .zoneRead p pl
  | .ringRead => .ringRead p pl
  | .logRead => .logRead p pl
  | .logRelease => .logRelease p pl
  | .noticeRead => .noticeRead p pl
  | .noticeMap => .noticeMap p pl
  | .lossAction => .lossAction p pl
  | .changeCancel => .changeCancel p pl
  | .profileOpen => .profileOpen p pl
  | .profileWrite => .profileWrite p pl
  | .profileRead => .profileRead p pl
  | .profileCommit => .profileCommit p pl
  | .profileAbandon => .profileAbandon p pl
  | .restart => .restart p pl
  | .speedRamp => .speedRamp p pl
  | .impressionOn => .impressionOn p pl
  | .impressionOff => .impressionOff p pl
  | .solventCharge => .solventCharge p pl
  | .jobTag => .jobTag p pl
  | .detectorSet => .detectorSet p pl
  | .breakClear => .breakClear p pl
  | .safeClear => .safeClear p pl
  | .zoneReport => .zoneReport p pl
  | .zoneSetpoint => .zoneSetpoint p pl
  | .exhaustTarget => .exhaustTarget p pl
  | .purgeStart => .purgeStart p pl
  | .coolDown => .coolDown p pl
  | .chillReport => .chillReport p pl
  | .chillSetpoint => .chillSetpoint p pl

/-- The command of any valid frame: the request its kind names, or UNKNOWN_KIND (R167). -/
def frameInstr (p : Port) (kind : Byte) (pl : List Byte) : Instr :=
  match requestOf kind with
  | some r => requestInstr r p pl
  | none => .unknownKind p kind pl

/-- The command a word spells by the bits of spec/opcode_table.json: no row gives any bits, so
every word spells none (log 24). -/
def decodeTableWord (_nbits _w : Nat) : Option Instr := none

end Sys2Proof
end

