-- ==== Sys2Proof/Config.lean ====
section
/-! DEFINITION. What the part fixes for good, and the free values: what its manual leaves open. -/
namespace Sys2Proof.Config

/-- Records the transit log holds at most (R151). -/
def logCapacity : Nat := 240

/-- Entries the pending list holds at most (R134). -/
def pendingCapacity : Nat := 8

/-- Largest payload of a frame, in bytes (R184). -/
def payloadMax : Nat := 240

/-- The gap timer's length, 2 ms (R165, section 9.1's state table). -/
def gapLength : Nat := 2000

/-- The purge timer's length, 100 ms (R58). -/
def purgeLength : Nat := 100000

/-- Length of a NOTE pulse in µs (R181). -/
def pulseLength : Nat := 20

/-- Period of the PWM stage in µs (R56). -/
def pwmPeriod : Nat := 1000

/-- A port's WINDOW in ms while no profile is committed (R172). -/
def defaultWindow : Nat := 500

/-- A port's WATERMARK until the first commit (R156). -/
def defaultWatermark : Nat := 32

/-- FREE VALUE (log 3). Which of several timers that are due in one microsecond is taken first:
the manual gives the outcome of either order and picks none. Applied to `State.freeCount`. -/
opaque dueChoice : Nat → Nat

/-- FREE VALUE (log 5). Whether the change to SAFE keeps the ready result's last value: R103 says
that it does, R86 that entry to SAFE sets the result to FAILS. -/
opaque safeKeepsReady : Bool

/-- FREE VALUE (log 31). Whether a commit's PROFILE record is measured against the old WATERMARKs: R161
applies the new ones after that record, R195 takes them before it. -/
opaque profileUnderOldWatermarks : Bool

end Sys2Proof.Config
end

