-- ==== Sys2Proof/Machine/Shapes.lean ====
section
/-! DEFINITION. One value per port and one value per detector, with their accessors. -/
namespace Sys2Proof.Machine

/-- One value per port. -/
structure PerPort (α : Type) where
  line : α
  dryer : α
  chill : α
deriving DecidableEq, Repr

/-- The value of port `p`. -/
def PerPort.get {α : Type} (x : PerPort α) : Port → α
  | .line => x.line
  | .dryer => x.dryer
  | .chill => x.chill

/-- `x` with port `p`'s value replaced. -/
def PerPort.set {α : Type} (x : PerPort α) (p : Port) (v : α) : PerPort α :=
  match p with
  | .line => { x with line := v }
  | .dryer => { x with dryer := v }
  | .chill => { x with chill := v }

/-- The values `f p` of the three ports. -/
def PerPort.of {α : Type} (f : Port → α) : PerPort α :=
  { line := f .line, dryer := f .dryer, chill := f .chill }

/-- One value per detector. -/
structure PerDetector (α : Type) where
  brk0 : α
  brk1 : α
  brk2 : α
  brk3 : α
deriving DecidableEq, Repr

/-- The value of detector `d`. -/
def PerDetector.get {α : Type} (x : PerDetector α) : Detector → α
  | .brk0 => x.brk0
  | .brk1 => x.brk1
  | .brk2 => x.brk2
  | .brk3 => x.brk3

/-- `x` with detector `d`'s value replaced. -/
def PerDetector.set {α : Type} (x : PerDetector α) (d : Detector) (v : α) : PerDetector α :=
  match d with
  | .brk0 => { x with brk0 := v }
  | .brk1 => { x with brk1 := v }
  | .brk2 => { x with brk2 := v }
  | .brk3 => { x with brk3 := v }

/-- The values `f d` of the four detectors. -/
def PerDetector.of {α : Type} (f : Detector → α) : PerDetector α :=
  { brk0 := f .brk0, brk1 := f .brk1, brk2 := f .brk2, brk3 := f .brk3 }

/-- `f` holds of every detector's value. -/
def PerDetector.all {α : Type} (x : PerDetector α) (f : α → Bool) : Bool :=
  f x.brk0 && f x.brk1 && f x.brk2 && f x.brk3

/-- `f` holds of some detector's value. -/
def PerDetector.any {α : Type} (x : PerDetector α) (f : α → Bool) : Bool :=
  f x.brk0 || f x.brk1 || f x.brk2 || f x.brk3

/-- The detector a number names in a request (R111). -/
def detectorOf : Nat → Option Detector
  | 0 => some .brk0
  | 1 => some .brk1
  | 2 => some .brk2
  | 3 => some .brk3
  | _ => none

/-- A detector's number (R113). -/
def detectorNumber : Detector → Nat
  | .brk0 => 0
  | .brk1 => 1
  | .brk2 => 2
  | .brk3 => 3

end Sys2Proof.Machine
end

