-- ==== Sys2Proof/Machine/ProfileItems.lean ====
section
/-! DEFINITION. The profile table: its items with their ids, ranges and defaults (R190), and the
checks of a commit in item order (R194, which also meets R2). -/
namespace Sys2Proof.Machine

/-- Kind of a zone map entry (R1). -/
inductive ZoneKind where
  | none | dryer | chill
deriving DecidableEq, Repr

/-- Polarity of a detector (R109). -/
inductive Polarity where
  | activeLow | activeHigh
deriving DecidableEq, Repr

/-- One entry of the zone map (R1). -/
structure ZoneItems where
  kind : ZoneKind
  span : Nat
  kHeat : Nat
  kRelease : Nat
  share : Nat
  setMin : Int
  setMax : Int
  tol : Nat
deriving DecidableEq, Repr

/-- One detector entry of the profile (R190). -/
structure DetectorItems where
  position : Nat
  polarity : Polarity
  armed : Bool
deriving DecidableEq, Repr

/-- One port entry of the profile (R190). -/
structure PortItems where
  priority : Nat
  window : Nat
  watermark : Nat
deriving DecidableEq, Repr

/-- The profile table, one value per item of R190. -/
structure Profile where
  segLength : Nat
  pulsesPerSeg : Nat
  tRef : Nat
  stallLimit : Nat
  dwellInterval : Nat
  ambient : Int
  releaseTemp : Int
  lelConc : Nat
  safeFraction : Nat
  loadTarget : Nat
  loadWarn : Nat
  loadHold : Nat
  loadTrip : Nat
  tripGrace : Nat
  wetLimit : Nat
  setLimit : Int
  blisterLimit : Int
  idleTemp : Int
  crawlLimit : Nat
  printMin : Nat
  fillSpeed : Nat
  speedMax : Nat
  rampStep : Nat
  rampRateMax : Nat
  speedTol : Nat
  settleCount : Nat
  settleLimit : Nat
  pendingLimit : Nat
  excessGrace : Nat
  stallGrace : Nat
  flowFull : Nat
  flowReady : Nat
  flowTol : Nat
  dutyMin : Nat
  dutyCold : Nat
  purgeDuty : Nat
  purgeFlow : Nat
  purgeVolume : Nat
  chillReady : Int
  postBreak : Nat
  zones : List ZoneItems
  detectors : PerDetector DetectorItems
  ports : PerPort PortItems
deriving DecidableEq, Repr

/-! ### Defaults (R190) -/

/-- A default DRYER zone (R190). -/
def defaultDryerZone (span share : Nat) : ZoneItems :=
  { kind := .dryer, span := span, kHeat := 40, kRelease := 30, share := share,
    setMin := 1200, setMax := 2200, tol := 50 }

/-- A default CHILL zone (R190). -/
def defaultChillZone : ZoneItems :=
  { kind := .chill, span := 6, kHeat := 60, kRelease := 0, share := 0,
    setMin := 120, setMax := 300, tol := 20 }

/-- A default NONE zone (R190). -/
def defaultNoneZone : ZoneItems :=
  { kind := .none, span := 0, kHeat := 0, kRelease := 0, share := 0,
    setMin := 0, setMax := 0, tol := 1 }

/-- A default detector entry at `position` (R109, R190). -/
def defaultDetector (position : Nat) : DetectorItems :=
  { position := position, polarity := .activeLow, armed := true }

/-- A default port entry of priority `priority` (R190). -/
def defaultPortItems (priority : Nat) : PortItems :=
  { priority := priority, window := 500, watermark := 32 }

/-- The defaults of R190. -/
def Profile.default : Profile where
  segLength := 500
  pulsesPerSeg := 250
  tRef := 50000
  stallLimit := 500
  dwellInterval := 1000
  ambient := 250
  releaseTemp := 1100
  lelConc := 48
  safeFraction := 25
  loadTarget := 500
  loadWarn := 600
  loadHold := 800
  loadTrip := 1000
  tripGrace := 20
  wetLimit := 150
  setLimit := 320
  blisterLimit := 1700
  idleTemp := 800
  crawlLimit := 300
  printMin := 500
  fillSpeed := 2000
  speedMax := 12000
  rampStep := 1000
  rampRateMax := 3000
  speedTol := 50
  settleCount := 8
  settleLimit := 10000
  pendingLimit := 30000
  excessGrace := 3000
  stallGrace := 10000
  flowFull := 4000
  flowReady := 1200
  flowTol := 100
  dutyMin := 64
  dutyCold := 0
  purgeDuty := 200
  purgeFlow := 2000
  purgeVolume := 200000
  chillReady := 250
  postBreak := 40
  zones :=
    [defaultDryerZone 12 80, defaultDryerZone 12 80, defaultDryerZone 12 64, defaultDryerZone 8 32,
     defaultChillZone, defaultChillZone, defaultNoneZone, defaultNoneZone]
  detectors :=
    { brk0 := defaultDetector 0, brk1 := defaultDetector 43,
      brk2 := defaultDetector 55, brk3 := defaultDetector 55 }
  ports :=
    { line := defaultPortItems 4, dryer := defaultPortItems 6, chill := defaultPortItems 5 }

/-! ### Numbers of enumerated values (R190) -/

/-- A zone kind's number: 0 NONE, 1 DRYER, 2 CHILL. -/
def ZoneKind.number : ZoneKind → Nat
  | .none => 0
  | .dryer => 1
  | .chill => 2

/-- The zone kind of a number in the item's range. -/
def zoneKindOf (v : Int) : ZoneKind :=
  if v = 1 then .dryer else if v = 2 then .chill else .none

/-- A polarity's number: 0 ACTIVE_LOW, 1 ACTIVE_HIGH. -/
def Polarity.number : Polarity → Nat
  | .activeLow => 0
  | .activeHigh => 1

/-- The polarity of a number in the item's range. -/
def polarityOf (v : Int) : Polarity :=
  if v = 1 then .activeHigh else .activeLow

/-! ### The item table (R190) -/

/-- One item of the table: its id, its range, how it is read and how it is written. -/
structure ItemRow where
  id : Nat
  lo : Int
  hi : Int
  get : Profile → Int
  put : Profile → Int → Profile

/-- A row of an item held as a `Nat`. -/
def natRow (id : Nat) (lo hi : Int) (get : Profile → Nat) (put : Profile → Nat → Profile) :
    ItemRow :=
  { id := id, lo := lo, hi := hi, get := fun x => (get x : Int),
    put := fun x v => put x v.toNat }

/-- Items 0x01 to 0x0E. -/
def motionAndLoadRows : List ItemRow :=
  [natRow 0x01 100 2000 (·.segLength) (fun x v => { x with segLength := v }),
   natRow 0x02 1 4096 (·.pulsesPerSeg) (fun x v => { x with pulsesPerSeg := v }),
   natRow 0x03 1000 1000000 (·.tRef) (fun x v => { x with tRef := v }),
   natRow 0x04 50 5000 (·.stallLimit) (fun x v => { x with stallLimit := v }),
   natRow 0x05 100 10000 (·.dwellInterval) (fun x v => { x with dwellInterval := v }),
   ⟨0x06, -400, 600, (·.ambient), fun x v => { x with ambient := v }⟩,
   ⟨0x07, 0, 3000, (·.releaseTemp), fun x v => { x with releaseTemp := v }⟩,
   natRow 0x08 1 500 (·.lelConc) (fun x v => { x with lelConc := v }),
   natRow 0x09 1 50 (·.safeFraction) (fun x v => { x with safeFraction := v }),
   natRow 0x0A 1 4000 (·.loadTarget) (fun x v => { x with loadTarget := v }),
   natRow 0x0B 1 4000 (·.loadWarn) (fun x v => { x with loadWarn := v }),
   natRow 0x0C 1 4000 (·.loadHold) (fun x v => { x with loadHold := v }),
   natRow 0x0D 1 4000 (·.loadTrip) (fun x v => { x with loadTrip := v }),
   natRow 0x0E 1 255 (·.tripGrace) (fun x v => { x with tripGrace := v })]

/-- Items 0x0F to 0x19. -/
def limitRows : List ItemRow :=
  [natRow 0x0F 0 65535 (·.wetLimit) (fun x v => { x with wetLimit := v }),
   ⟨0x10, 0, 3500, (·.setLimit), fun x v => { x with setLimit := v }⟩,
   ⟨0x11, 0, 3500, (·.blisterLimit), fun x v => { x with blisterLimit := v }⟩,
   ⟨0x12, 0, 3500, (·.idleTemp), fun x v => { x with idleTemp := v }⟩,
   natRow 0x13 1 65535 (·.crawlLimit) (fun x v => { x with crawlLimit := v }),
   natRow 0x14 1 65535 (·.printMin) (fun x v => { x with printMin := v }),
   natRow 0x15 1 65535 (·.fillSpeed) (fun x v => { x with fillSpeed := v }),
   natRow 0x16 1 65535 (·.speedMax) (fun x v => { x with speedMax := v }),
   natRow 0x17 1 65535 (·.rampStep) (fun x v => { x with rampStep := v }),
   natRow 0x18 1 65535 (·.rampRateMax) (fun x v => { x with rampRateMax := v }),
   natRow 0x19 0 65535 (·.speedTol) (fun x v => { x with speedTol := v })]

/-- Items 0x1A to 0x28. -/
def timingAndFlowRows : List ItemRow :=
  [natRow 0x1A 1 255 (·.settleCount) (fun x v => { x with settleCount := v }),
   natRow 0x1B 100 60000 (·.settleLimit) (fun x v => { x with settleLimit := v }),
   natRow 0x1C 1000 600000 (·.pendingLimit) (fun x v => { x with pendingLimit := v }),
   natRow 0x1D 100 30000 (·.excessGrace) (fun x v => { x with excessGrace := v }),
   natRow 0x1E 1000 120000 (·.stallGrace) (fun x v => { x with stallGrace := v }),
   natRow 0x1F 1 65535 (·.flowFull) (fun x v => { x with flowFull := v }),
   natRow 0x20 0 65535 (·.flowReady) (fun x v => { x with flowReady := v }),
   natRow 0x21 0 65535 (·.flowTol) (fun x v => { x with flowTol := v }),
   natRow 0x22 0 256 (·.dutyMin) (fun x v => { x with dutyMin := v }),
   natRow 0x23 0 256 (·.dutyCold) (fun x v => { x with dutyCold := v }),
   natRow 0x24 0 256 (·.purgeDuty) (fun x v => { x with purgeDuty := v }),
   natRow 0x25 10 65535 (·.purgeFlow) (fun x v => { x with purgeFlow := v }),
   natRow 0x26 1 10000000 (·.purgeVolume) (fun x v => { x with purgeVolume := v }),
   ⟨0x27, -400, 3500, (·.chillReady), fun x v => { x with chillReady := v }⟩,
   natRow 0x28 0 240 (·.postBreak) (fun x v => { x with postBreak := v })]

/-- Zone entry `z` of a table. -/
def Profile.zoneAt (x : Profile) (z : Nat) : ZoneItems :=
  x.zones.getD z defaultNoneZone

/-- `x` with zone entry `z` changed by `f`. -/
def Profile.modZone (x : Profile) (z : Nat) (f : ZoneItems → ZoneItems) : Profile :=
  { x with zones := x.zones.set z (f (x.zoneAt z)) }

/-- The rows of zone `z`, ids 0x40 + 8z + f. -/
def zoneRows (z : Nat) : List ItemRow :=
  let row (f : Nat) (hi : Int) (get : ZoneItems → Nat) (put : ZoneItems → Nat → ZoneItems) :=
    natRow (0x40 + 8 * z + f) 0 hi (fun x => get (x.zoneAt z))
      (fun x v => x.modZone z (fun e => put e v))
  [row 0 2 (·.kind.number) (fun e v => { e with kind := zoneKindOf v }),
   row 1 128 (·.span) (fun e v => { e with span := v }),
   row 2 256 (·.kHeat) (fun e v => { e with kHeat := v }),
   row 3 256 (·.kRelease) (fun e v => { e with kRelease := v }),
   row 4 256 (·.share) (fun e v => { e with share := v }),
   ⟨0x40 + 8 * z + 5, -400, 3500, fun x => (x.zoneAt z).setMin,
     fun x v => x.modZone z (fun e => { e with setMin := v })⟩,
   ⟨0x40 + 8 * z + 6, -400, 3500, fun x => (x.zoneAt z).setMax,
     fun x v => x.modZone z (fun e => { e with setMax := v })⟩,
   { row 7 500 (·.tol) (fun e v => { e with tol := v }) with lo := 1 }]

/-- The rows of detector `d`, ids 0x80 + 4d + f. -/
def detectorRows (d : Detector) : List ItemRow :=
  let row (f : Nat) (hi : Int) (get : DetectorItems → Nat)
      (put : DetectorItems → Nat → DetectorItems) :=
    natRow (0x80 + 4 * detectorNumber d + f) 0 hi (fun x => get (x.detectors.get d))
      (fun x v => { x with detectors := x.detectors.set d (put (x.detectors.get d) v) })
  [row 0 127 (·.position) (fun e v => { e with position := v }),
   row 1 1 (·.polarity.number) (fun e v => { e with polarity := polarityOf v }),
   row 2 1 (fun e => if e.armed then 1 else 0) (fun e v => { e with armed := v == 1 })]

/-- A port's number in the item ids (R190). -/
def portItemNumber : Port → Nat
  | .line => 0
  | .dryer => 1
  | .chill => 2

/-- The rows of port `p`, ids 0x90 + 4p + f. -/
def portRows (p : Port) : List ItemRow :=
  let row (f : Nat) (lo hi : Int) (get : PortItems → Nat) (put : PortItems → Nat → PortItems) :=
    natRow (0x90 + 4 * portItemNumber p + f) lo hi (fun x => get (x.ports.get p))
      (fun x v => { x with ports := x.ports.set p (put (x.ports.get p) v) })
  [row 0 0 7 (·.priority) (fun e v => { e with priority := v }),
   row 1 20 5000 (·.window) (fun e v => { e with window := v }),
   row 2 1 240 (·.watermark) (fun e v => { e with watermark := v })]

/-- The item table, in ascending order of item id (R190). -/
def itemRows : List ItemRow :=
  motionAndLoadRows ++ limitRows ++ timingAndFlowRows ++
  (zoneRows 0 ++ zoneRows 1 ++ zoneRows 2 ++ zoneRows 3) ++
  (zoneRows 4 ++ zoneRows 5 ++ zoneRows 6 ++ zoneRows 7) ++
  (detectorRows .brk0 ++ detectorRows .brk1 ++ detectorRows .brk2 ++ detectorRows .brk3) ++
  (portRows .line ++ portRows .dryer ++ portRows .chill)

/-- The row of an item id; none for an id the table does not name. -/
def itemRow (id : Nat) : Option ItemRow :=
  itemRows.find? (fun r => r.id == id)

/-- An item's value (R193). -/
def Profile.item (x : Profile) (id : Nat) : Option Int :=
  (itemRow id).map (fun r => r.get x)

/-- The table with an item written; none for an unnamed item or a value outside its range (R193). -/
def Profile.writeItem (x : Profile) (id : Nat) (v : Int) : Option Profile :=
  match itemRow id with
  | none => none
  | some r => if r.lo ≤ v ∧ v ≤ r.hi then some (r.put x v) else none

/-! ### Zone map (R1, R3) -/

/-- The used entries, in path order: those before the first NONE entry (R2). -/
def Profile.used (x : Profile) : List ZoneItems :=
  x.zones.takeWhile (fun e => e.kind != .none)

/-- The DRYER entries; entry `z` of the list is zone `z` (R2: they come first). -/
def Profile.dryers (x : Profile) : List ZoneItems :=
  x.used.takeWhile (fun e => e.kind == .dryer)

/-- The CHILL entries, those after the DRYER entries (R2). -/
def Profile.chills (x : Profile) : List ZoneItems :=
  x.used.drop x.dryers.length

/-- Sum of the spans of a list of entries. -/
def spanSum (l : List ZoneItems) : Nat :=
  (l.map (·.span)).sum

/-- The ring length N (R1). -/
def Profile.ringLength (x : Profile) : Nat :=
  spanSum x.used

/-- Number of dryer positions, L_d + 1 (R3). -/
def Profile.dryerLength (x : Profile) : Nat :=
  spanSum x.dryers

/-- First position of zone `z` (R3). -/
def Profile.zoneStart (x : Profile) (z : Nat) : Nat :=
  spanSum (x.used.take z)

/-- The used entry of zone `z`, if it has one. -/
def Profile.usedZone (x : Profile) (z : Nat) : Option ZoneItems :=
  x.used[z]?

/-- The allowed concentration C_lim (R45). -/
def Profile.cLim (x : Profile) : Nat :=
  x.lelConc * x.safeFraction / 100

/-! ### Validation (R194) -/

/-- Number of CHILL entries before zone `z`. -/
def chillsBefore (x : Profile) (z : Nat) : Nat :=
  ((x.zones.take z).filter (fun e => e.kind == .chill)).length

/-- Zone `z` is the first NONE zone, or zone 7 where no zone is NONE (R194). -/
def closesMap (x : Profile) (z : Nat) : Bool :=
  if (x.zones.take 8).all (fun e => e.kind != .none) then z == 7
  else (x.zoneAt z).kind == .none && (x.zones.take z).all (fun e => e.kind != .none)

/-- The checks on the kind of zone `z` (R194). -/
def kindCheck (x : Profile) (z : Nat) : Bool :=
  let k := (x.zoneAt z).kind
  let order :=
    if z = 0 then k == .dryer
    else
      let before := (x.zoneAt (z - 1)).kind
      !(k != .none && before == .none) && !(k == .dryer && before == .chill) &&
        !(k == .chill && decide (3 ≤ chillsBefore x z))
  let close :=
    !(closesMap x z) || decide (1 ≤ chillsBefore x z) || (z == 7 && k == .chill)
  order && close

/-- The check on the span of zone `z` (R194). -/
def spanCheck (x : Profile) (z : Nat) : Bool :=
  (x.zoneAt z).kind == .none ||
    (decide (1 ≤ (x.zoneAt z).span) &&
      decide (spanSum ((x.zones.take (z + 1)).filter (fun e => e.kind != .none)) ≤ 128))

/-- The check on SHARE of zone `z`, tested at the last DRYER zone (R194). -/
def shareCheck (x : Profile) (z : Nat) : Bool :=
  let last := (x.zoneAt z).kind == .dryer &&
    ((x.zones.take 8).drop (z + 1)).all (fun e => e.kind != .dryer)
  let sum : Nat := (((x.zones.take 8).filter (fun e => e.kind == .dryer)).map (·.share)).sum
  !last || (decide (1 ≤ sum) && decide (sum ≤ 256))

/-- The check on SET_MAX of zone `z` (R194). -/
def setMaxCheck (x : Profile) (z : Nat) : Bool :=
  (x.zoneAt z).kind == .none || decide ((x.zoneAt z).setMin ≤ (x.zoneAt z).setMax)

/-- The check of one item beyond its range; items R194 does not list always pass. -/
def itemCheck (x : Profile) (id : Nat) : Bool :=
  if id = 0x08 then decide (1 ≤ x.cLim)
  else if id = 0x0B then decide (x.loadTarget ≤ x.loadWarn)
  else if id = 0x0C then decide (x.loadWarn ≤ x.loadHold)
  else if id = 0x0D then decide (x.loadHold ≤ x.loadTrip)
  else if id = 0x14 then decide (x.crawlLimit < x.printMin)
  else if id = 0x15 then decide (x.printMin ≤ x.fillSpeed)
  else if id = 0x16 then decide (x.fillSpeed ≤ x.speedMax)
  else if 0x40 ≤ id ∧ id < 0x80 then
    let z := (id - 0x40) / 8
    let f := (id - 0x40) % 8
    if f = 0 then kindCheck x z
    else if f = 1 then spanCheck x z
    else if f = 4 then shareCheck x z
    else if f = 6 then setMaxCheck x z
    else true
  else if id = 0x80 then decide (x.detectors.brk0.position < x.ringLength)
  else if id = 0x84 then decide (x.detectors.brk1.position < x.ringLength)
  else if id = 0x88 then decide (x.detectors.brk2.position < x.ringLength)
  else if id = 0x8C then decide (x.detectors.brk3.position < x.ringLength)
  else true

/-- The first item, in ascending order of id, whose check fails (R194). -/
def Profile.firstFailure (x : Profile) : Option Nat :=
  (itemRows.map (·.id)).find? (fun id => !itemCheck x id)

end Sys2Proof.Machine
end

