-- ==== Sys2Proof/Machine/State.lean ====
section
/-! DEFINITION. The coordinator's state, block by block, as plain data; the reasons a step can stop;
the state after reset. -/
namespace Sys2Proof.Machine

/-- A timer: the microseconds left to its expiry, or none while it is stopped (R29). -/
abbrev Timer := Option Nat

/-! ### Time base and motion unit -/

/-- The time base (R28). `sub` is the number of microseconds since TIME_MS last changed. -/
structure TimeBase where
  us : BitVec 32
  ms : BitVec 24
  sub : Nat
deriving DecidableEq, Repr

/-- The last advance instant and the elapsed count, present together (R34). -/
structure AdvanceRef where
  instant : BitVec 32
  elapsed : Nat
deriving DecidableEq, Repr

/-- MOVING or STILL (R37). -/
inductive MotionState where
  | moving | still
deriving DecidableEq, Repr

/-- The motion unit (R30 to R43). -/
structure Motion where
  p : Nat
  d : Nat
  last : Option AdvanceRef
  tStep : Nat
  vMeas : Nat
  state : MotionState
  stallTimer : Timer
  dwellTimer : Timer
  encRef : EncPair
deriving DecidableEq, Repr

/-! ### Line phase names (needed by the ring's publication) -/

/-- The nine line phases (chapter 5). -/
inductive Phase where
  | unconfigured | cold | purge | heating | ready | printing | draining | webBreak | safe
deriving DecidableEq, Repr

/-- The causes of phase changes (R81). -/
inductive Cause where
  | none | commit | purgeStart | purgeDone | readyMet | readyLost | impressionOn | impressionOff
  | runEnd | stall | excess | lineLost | drainDone | coolDown | webBreak | breakClear | estop
  | loadTrip | portLoss | safeClear
deriving DecidableEq, Repr

/-! ### Transit ring -/

/-- Kind of a segment record (R6). -/
inductive SegKind where
  | printed | blank | void
deriving DecidableEq, Repr

/-- Temperature and peak of a record, absent together for VOID (R6, R7). -/
structure SegHeat where
  temp : Int
  peak : Int
deriving DecidableEq, Repr

/-- A segment record (R6). -/
structure SegRecord where
  seq : Word16
  kind : SegKind
  solvent : Nat
  heat : Option SegHeat
  stranded : Bool
  tag : Option Nat
deriving DecidableEq, Repr

/-- Kind of the last step published (R22). -/
inductive StepKind where
  | none | advance | dwell
deriving DecidableEq, Repr

/-- What an ADVANCE entered, and the phase that decided it (R22). -/
structure EntryInfo where
  kind : SegKind
  phase : Phase
deriving DecidableEq, Repr

/-- The transit ring (R1 to R27); the zone map is that of the committed profile. `inputs` holds one
temperature per used zone, `release` one sum per DRYER zone. -/
structure Ring where
  inputs : List Int
  records : List SegRecord
  entryCounter : Word16
  charge : Nat
  tag : Option Nat
  release : List Nat
  lastKind : StepKind
  lastT : Nat
  lastEntry : Option EntryInfo
deriving DecidableEq, Repr

/-! ### Load unit -/

/-- The load unit (R44 to R61). `loads` holds one vapour load per DRYER zone. -/
structure Load where
  flow : Nat
  loads : List Nat
  peak : Nat
  peakZone : Nat
  tripCount : Nat
  fReq : Nat
  baseDuty : Nat
  floorDuty : Nat
deriving DecidableEq, Repr

/-- The PWM stage (R56): microseconds into the running period and its high time. -/
structure Pwm where
  elapsed : Nat
  highTime : Nat
deriving DecidableEq, Repr

/-! ### Envelope unit -/

/-- The ceiling components, in the tie order of R64. -/
inductive Limiter where
  | max | phase | fill | vapour | chill | port
deriving DecidableEq, Repr

/-- The component values, none where the component is not applied (R64). -/
structure Components where
  max : Option Nat
  phase : Option Nat
  fill : Option Nat
  vapour : Option Nat
  chill : Option Nat
  port : Option Nat
deriving DecidableEq, Repr

/-- The envelope unit (R62 to R80). `heatCaps` holds one value per DRYER zone. -/
structure Envelope where
  tIn : Option Int
  comps : Components
  ceiling : Nat
  limiter : Limiter
  heatCaps : List Int
  idle : Bool
  predicted : Option Int
  underchill : Bool
deriving DecidableEq, Repr

/-! ### Phase unit -/

/-- Result of the ready test (R86). -/
inductive ReadyResult where
  | holds | fails
deriving DecidableEq, Repr

/-- The run count (R91). -/
structure RunCount where
  base : Nat
  current : Nat
  repeats : Bool
deriving DecidableEq, Repr

/-- The phase unit (R81 to R108, and the purge accumulator of R58). `setpoints` holds one value per
used zone: the zone setpoints, then the chill setpoints. -/
structure PhaseUnit where
  phase : Phase
  cause : Cause
  ready : ReadyResult
  fill : Nat
  run : Option RunCount
  mark : Nat
  drain : Nat
  stallGrace : Timer
  excess : Timer
  purgeTimer : Timer
  purgeVolume : Nat
  speedGrant : Nat
  setpoints : List Int
  exhaust : Nat
  estopActive : Bool
  heatInhibit : Bool
  permit : Bool
deriving DecidableEq, Repr

/-! ### Break unit -/

/-- A detector's POSITION and POLARITY, present with a profile (R109). -/
structure DetectorCfg where
  position : Nat
  polarity : Polarity
deriving DecidableEq, Repr

/-- A detector entry (R109, R110, R120). -/
structure DetectorEntry where
  cfg : Option DetectorCfg
  armed : Bool
  latch : Bool
  level : Level
deriving DecidableEq, Repr

/-- The break unit (R109 to R124). -/
structure BreakUnit where
  dets : PerDetector DetectorEntry
  pb : Option Nat
deriving DecidableEq, Repr

/-! ### Change arbiter -/

/-- Status of a pending entry (R130). -/
inductive EntryStatus where
  | queued | held
deriving DecidableEq, Repr

/-- A pending entry (chapter 7). `ahead` marks an entry noted as standing ahead of the SPEED entry
when that was granted (R134). -/
structure PendingEntry where
  key : ChangeKey
  value : Int
  arrival : Word16
  status : EntryStatus
  timer : Timer
  ahead : Bool
deriving DecidableEq, Repr

/-- The change in flight (R139). -/
structure InFlight where
  key : ChangeKey
  value : Int
  arrival : Word16
  granted : Int
deriving DecidableEq, Repr

/-- How a change ended (R147). -/
inductive EndReason where
  | settled | timedOut | cancelled | noHeadroom | portLost | aborted
deriving DecidableEq, Repr

/-- A port's last change outcome (R147). -/
structure ChangeOutcome where
  key : ChangeKey
  arrival : Word16
  value : Int
  reason : EndReason
deriving DecidableEq, Repr

/-- The change arbiter (R125 to R148). -/
structure Arbiter where
  list : List PendingEntry
  inFlight : Option InFlight
  arrival : Word16
  settleCount : Nat
  settleTimer : Timer
  outcomes : PerPort (Option ChangeOutcome)
deriving DecidableEq, Repr

/-! ### Transit log -/

/-- Loss actions (R175). -/
inductive LossAction where
  | note | limit | safe
deriving DecidableEq, Repr

/-- The four exit flags (R16). -/
structure ExitFlags where
  wet : Bool
  underchilled : Bool
  overheated : Bool
  stranded : Bool
deriving DecidableEq, Repr

/-- What a log record says, its stamp apart (R149, R150). -/
inductive LogBody where
  | exit (kind : SegKind) (flags : ExitFlags) (seq : Word16) (residual : Nat) (temp peak : Int)
      (tag : Option Nat)
  | phase (old new : Phase) (cause : Cause) (vMeas : Nat)
  | webBreak (d : Detector) (position voided : Nat) (upstream : Bool)
  | runMark (mark : Nat)
  | filled (vMeas : Nat)
  | trip (zone peak : Nat)
  | port (p : Port) (back : Bool) (action : LossAction)
  | profile (p : Port) (ringLength : Nat) (phase : Phase)
  | released (p : Port) (drops : Nat)
  | restart (p : Port) (held drops : Nat)
deriving DecidableEq, Repr

/-- A log record with its TIME_MS stamp (R149). -/
structure LogRecord where
  body : LogBody
  stamp : BitVec 24
deriving DecidableEq, Repr

/-- The freeze state, with the post-break remainder in ARMED (R157, R158). -/
inductive Freeze where
  | opened
  | armed (remainder : Nat)
  | frozen
deriving DecidableEq, Repr

/-- The transit log, oldest record first (R149 to R163). A port's cursor stands at the record that
`unread` counts from the newest end. -/
structure TransitLog where
  records : List LogRecord
  unread : PerPort Nat
  skip : PerPort Nat
  freeze : Freeze
  drops : Nat
deriving DecidableEq, Repr

/-! ### Port unit -/

/-- The receiver with its frame buffer (R165). `got` are the payload bytes so far, `high` the first
CRC byte once taken. -/
inductive Receiver where
  | hunt
  | kind (crc : Word16)
  | length (kind : Byte) (crc : Word16)
  | payload (kind : Byte) (length : Nat) (got : List Byte) (crc : Word16)
  | check (kind : Byte) (pl : List Byte) (crc : Word16) (high : Option Byte)
deriving DecidableEq, Repr

/-- A reply: its kind and payload, the payload's first byte being the result code (R168). -/
structure Reply where
  kind : Byte
  payload : List Byte
deriving DecidableEq, Repr

/-- A port's liveness (R172). -/
inductive Liveness where
  | quiet | active | lost
deriving DecidableEq, Repr

/-- A port's notice mode (R179). -/
inductive NoticeMode where
  | latched | pulsed
deriving DecidableEq, Repr

/-- One port (R164 to R182). `holding` says which level conditions hold (R177); `watermark` is the
WATERMARK in force, which a commit replaces (R156, R195). -/
structure PortState where
  rx : Receiver
  gap : Timer
  tx : Option Reply
  txTimer : Timer
  waiting : Option Reply
  live : Liveness
  window : Timer
  action : LossAction
  lock : Bool
  pendingSet : NoticeSet
  holding : NoticeSet
  map : NoticeSet
  mode : NoticeMode
  note : Bool
  pulse : Timer
  watermark : Nat
deriving DecidableEq, Repr

/-! ### Profile unit -/

/-- The profile state code (R191). -/
inductive ProfileCode where
  | none | staged | valid | invalid
deriving DecidableEq, Repr

/-- The profile unit (R190 to R197); the committed flag is the presence of `committed`. -/
structure ProfileUnit where
  committed : Option Profile
  staged : Profile
  holder : Option Port
  code : ProfileCode
  errorItem : Option Byte
deriving DecidableEq, Repr

/-! ### The whole machine -/

/-- The coordinator's state. `pending` is the queue of commands waiting, first in, first out;
`freeCount` counts the uses of the free value `Config.dueChoice` (log 3). -/
structure State where
  time : TimeBase
  motion : Motion
  ring : Ring
  load : Load
  pwm : Pwm
  env : Envelope
  line : PhaseUnit
  brk : BreakUnit
  arb : Arbiter
  log : TransitLog
  ports : PerPort PortState
  prof : ProfileUnit
  pending : List Instr
  freeCount : Nat
deriving DecidableEq, Repr

/-- The reasons a step can fault: none. The manual names no event at which the part stops. -/
inductive Fault where
deriving DecidableEq, Repr

/-- The reasons a step can be refused. -/
inductive Refusal where
  /-- Raised by an arm of `exec` whose command has no meaning yet, and by nothing else; no arm raises
  it now. It is safe: nothing follows from a step that is refused. -/
  | notModelled (mnemonic : String)
deriving DecidableEq, Repr

/-! ### Reset -/

/-- One port after a reset (R182). -/
def PortState.reset : PortState where
  rx := .hunt
  gap := none
  tx := none
  txTimer := none
  waiting := none
  live := .quiet
  window := none
  action := .safe
  lock := false
  pendingSet := 0
  holding := 0
  map := BitVec.allOnes 16
  mode := .latched
  note := false
  pulse := none
  watermark := Config.defaultWatermark

/-- A detector entry after a reset that ended with its input at `level` (R123). -/
def DetectorEntry.reset (level : Level) : DetectorEntry :=
  { cfg := none, armed := false, latch := false, level := level }

/-- The machine after a power-on or external reset that ended with `lines` on its inputs
(R10, R28, R40, R60, R79, R107, R123, R148, R161, R182, R191). -/
def State.afterReset (lines : InputLines) : State where
  time := { us := 0, ms := 0, sub := 0 }
  motion :=
    { p := 0, d := 0, last := none, tStep := 0, vMeas := 0, state := .still,
      stallTimer := none, dwellTimer := none, encRef := lines.enc }
  ring :=
    { inputs := [], records := [], entryCounter := 0, charge := 0, tag := none,
      release := [], lastKind := .none, lastT := 0, lastEntry := none }
  load :=
    { flow := 0, loads := [], peak := 0, peakZone := 0, tripCount := 0, fReq := 0,
      baseDuty := 0, floorDuty := 256 }
  pwm := { elapsed := 0, highTime := 1000 }
  env :=
    { tIn := none,
      comps :=
        { max := none, phase := none, fill := none, vapour := none, chill := none, port := none },
      ceiling := 0, limiter := .phase, heatCaps := [], idle := false, predicted := none,
      underchill := false }
  line :=
    { phase := .unconfigured, cause := .none, ready := .fails, fill := 0, run := none, mark := 0,
      drain := 0, stallGrace := none, excess := none, purgeTimer := none, purgeVolume := 0,
      speedGrant := 0, setpoints := [], exhaust := 0, estopActive := lines.estop == .low,
      heatInhibit := true, permit := false }
  brk :=
    { dets :=
        { brk0 := .reset lines.brk0, brk1 := .reset lines.brk1,
          brk2 := .reset lines.brk2, brk3 := .reset lines.brk3 },
      pb := none }
  arb :=
    { list := [], inFlight := none, arrival := 0, settleCount := 0, settleTimer := none,
      outcomes := { line := none, dryer := none, chill := none } }
  log :=
    { records := [], unread := { line := 0, dryer := 0, chill := 0 },
      skip := { line := 0, dryer := 0, chill := 0 }, freeze := .opened, drops := 0 }
  ports := { line := .reset, dryer := .reset, chill := .reset }
  prof :=
    { committed := none, staged := .default, holder := none, code := .none, errorItem := none }
  pending := []
  freeCount := 0

/-- The input levels of `State.reset`: both encoder lines low, ESTOP and the detectors high
(DESIGN CHOICE, log 6). -/
def resetLines : InputLines where
  enc := { a := .low, b := .low }
  estop := .high
  brk0 := .high
  brk1 := .high
  brk2 := .high
  brk3 := .high

/-- The machine right after reset. -/
def State.reset : State := State.afterReset resetLines

end Sys2Proof.Machine
end

