-- ==== Sys2Proof/Machine/Operands.lean ====
section
/-! DEFINITION. Operands of commands and fields of replies: byte order (R183), code values (R186),
the CRC and the frame (R165, R184), the layouts of the log record (R187) and the segment record
(R188). -/
namespace Sys2Proof.Machine

/-! ### Reading a payload (R183) -/

/-- The number a list of bytes spells, most significant byte first. -/
def bigEndian (l : List Byte) : Nat :=
  l.foldl (fun n b => n * 256 + b.toNat) 0

/-- The field of `len` bytes at offset `off` of a payload. -/
def fieldAt (pl : List Byte) (off len : Nat) : Nat :=
  bigEndian ((pl.drop off).take len)

/-- A 16-bit field as a signed number. -/
def signed16 (n : Nat) : Int :=
  if n < 32768 then (n : Int) else (n : Int) - 65536

/-- A 32-bit field as a signed number. -/
def signed32 (n : Nat) : Int :=
  if n < 2147483648 then (n : Int) else (n : Int) - 4294967296

/-- The signed 16-bit values of a payload from offset `off` on, two bytes each (R185). -/
def signedValues : List Byte → List Int
  | hi :: lo :: rest => signed16 (bigEndian [hi, lo]) :: signedValues rest
  | _ => []

/-! ### Writing a payload (R183) -/

/-- A one-byte field. -/
def u8 (n : Nat) : List Byte := [BitVec.ofNat 8 n]

/-- A two-byte field. -/
def u16 (n : Nat) : List Byte := [BitVec.ofNat 8 (n / 256), BitVec.ofNat 8 n]

/-- A three-byte field. -/
def u24 (n : Nat) : List Byte := BitVec.ofNat 8 (n / 65536) :: u16 n

/-- A four-byte field. -/
def u32 (n : Nat) : List Byte := BitVec.ofNat 8 (n / 16777216) :: u24 n

/-- A signed two-byte field, two's complement. -/
def i16 (v : Int) : List Byte := u16 (v % 65536).toNat

/-- A signed four-byte field, two's complement. -/
def i32 (v : Int) : List Byte := u32 (v % 4294967296).toNat

/-- A temperature that may be absent, 0x8000 when it is. -/
def optTemp : Option Int → List Byte
  | some v => i16 v
  | none => [0x80, 0x00]

/-- A one-byte position or zone that may be absent, 0xFF when it is. -/
def optPlace : Option Nat → List Byte
  | some v => u8 v
  | none => [0xFF]

/-- Flag bits, bit 0 first. -/
def flagByte (bits : List Bool) : List Byte :=
  u8 (bits.foldr (fun b n => (if b then 1 else 0) + 2 * n) 0)

/-! ### Code values (R186) -/

/-- The result codes (R168). -/
inductive Result where
  | ok | clamped | queued | held | refusedPhase | refusedState | refusedRange | refusedPort
  | refusedBusy | refusedFull | refusedLocked | badFrame | unknownKind
deriving DecidableEq, Repr

/-- Code of a result. -/
def Result.code : Result → Byte
  | .ok => 0x00
  | .clamped => 0x01
  | .queued => 0x02
  | .held => 0x03
  | .refusedPhase => 0x10
  | .refusedState => 0x11
  | .refusedRange => 0x12
  | .refusedPort => 0x13
  | .refusedBusy => 0x14
  | .refusedFull => 0x15
  | .refusedLocked => 0x16
  | .badFrame => 0x20
  | .unknownKind => 0x21

/-- Code of a port. -/
def portCode : Port → Nat
  | .line => 1
  | .dryer => 2
  | .chill => 3

/-- Code of a port that may be absent. -/
def optPortCode : Option Port → Nat
  | some p => portCode p
  | none => 0

/-- Code of a phase. -/
def Phase.code : Phase → Nat
  | .unconfigured => 0
  | .cold => 1
  | .purge => 2
  | .heating => 3
  | .ready => 4
  | .printing => 5
  | .draining => 6
  | .webBreak => 7
  | .safe => 8

/-- Code of a cause, in the order of R81's table. -/
def Cause.code : Cause → Nat
  | .none => 0x00
  | .commit => 0x01
  | .purgeStart => 0x02
  | .purgeDone => 0x03
  | .readyMet => 0x04
  | .readyLost => 0x05
  | .impressionOn => 0x06
  | .impressionOff => 0x07
  | .runEnd => 0x08
  | .stall => 0x09
  | .excess => 0x0A
  | .lineLost => 0x0B
  | .drainDone => 0x0C
  | .coolDown => 0x0D
  | .webBreak => 0x0E
  | .breakClear => 0x0F
  | .estop => 0x10
  | .loadTrip => 0x11
  | .portLoss => 0x12
  | .safeClear => 0x13

/-- Code of a limiter. -/
def Limiter.code : Limiter → Nat
  | .max => 0
  | .phase => 1
  | .fill => 2
  | .vapour => 3
  | .chill => 4
  | .port => 5

/-- Code of a change kind. -/
def keyKindCode : ChangeKey → Nat
  | .speed => 1
  | .exhaust => 2
  | .zone _ => 3
  | .chill _ => 4

/-- Zone of a change, absent for SPEED and EXHAUST. -/
def keyZone : ChangeKey → Option Nat
  | .speed => none
  | .exhaust => none
  | .zone z => some z
  | .chill c => some c

/-- Code of an end reason. -/
def EndReason.code : EndReason → Nat
  | .settled => 1
  | .timedOut => 2
  | .cancelled => 3
  | .noHeadroom => 4
  | .portLost => 5
  | .aborted => 6

/-- What became of a change request (R129). -/
inductive Disposition where
  | atOnce | waiting | held | granted | inFlight | notAdmitted
deriving DecidableEq, Repr

/-- Code of a disposition. -/
def Disposition.code : Disposition → Nat
  | .atOnce => 0
  | .waiting => 1
  | .held => 2
  | .granted => 3
  | .inFlight => 4
  | .notAdmitted => 5

/-- Code of a liveness. -/
def Liveness.code : Liveness → Nat
  | .quiet => 0
  | .active => 1
  | .lost => 2

/-- Code of a loss action (R185). -/
def LossAction.code : LossAction → Nat
  | .note => 0
  | .limit => 1
  | .safe => 2

/-- The loss action of a request's byte (R175, R185). -/
def lossActionOf : Nat → Option LossAction
  | 0 => some .note
  | 1 => some .limit
  | 2 => some .safe
  | _ => none

/-- Code of a freeze state. -/
def Freeze.code : Freeze → Nat
  | .opened => 0
  | .armed _ => 1
  | .frozen => 2

/-- The post-break remainder, 0 when absent (R154). -/
def Freeze.remainder : Freeze → Nat
  | .opened => 0
  | .armed r => r
  | .frozen => 0

/-- Code of a profile state. -/
def ProfileCode.code : ProfileCode → Nat
  | .none => 0
  | .staged => 1
  | .valid => 2
  | .invalid => 3

/-- Code of a notice mode (R185). -/
def NoticeMode.code : NoticeMode → Nat
  | .latched => 0
  | .pulsed => 1

/-- The notice mode of a request's byte (R179, R185). -/
def noticeModeOf : Nat → Option NoticeMode
  | 0 => some .latched
  | 1 => some .pulsed
  | _ => none

/-- Code of a segment kind (R188). -/
def SegKind.code : SegKind → Nat
  | .printed => 1
  | .blank => 2
  | .void => 3

/-! ### CRC and frame (R165, R184) -/

/-- One bit of the CRC with polynomial x^16 + x^12 + x^5 + 1 (R165). -/
def crcShift (crc : Word16) : Word16 :=
  if crc.msb then (crc <<< 1) ^^^ 0x1021#16 else crc <<< 1

/-- The CRC after one more byte, its most significant bit first (R165). -/
def crcByte (crc : Word16) (b : Byte) : Word16 :=
  let c := crc ^^^ (b.setWidth 16 <<< 8)
  crcShift (crcShift (crcShift (crcShift (crcShift (crcShift (crcShift (crcShift c)))))))

/-- The CRC's initial value (R165). -/
def crcInit : Word16 := 0xFFFF

/-- The CRC over a list of bytes (R165). -/
def crcOf (l : List Byte) : Word16 := l.foldl crcByte crcInit

/-- The bytes of a frame (R184). -/
def frameBytes (kind : Byte) (pl : List Byte) : List Byte :=
  let body := kind :: BitVec.ofNat 8 pl.length :: pl
  let crc := crcOf body
  0xA5 :: body ++ [crc.extractLsb' 8 8, crc.extractLsb' 0 8]

/-- The bytes a reply puts on TXD (R168, R184). -/
def Reply.frame (r : Reply) : List Byte := frameBytes r.kind r.payload

/-! ### Bytes on the line (R164) -/

/-- The level of a bit: high for 1 (log 19, DEDUCED). -/
def bitLevel (b : Bool) : Level := if b then .high else .low

/-- A byte on the line: the start bit low, eight data bits least significant first, the stop bit high
(R164; the levels are log 19's, DEDUCED). -/
def byteLevels (b : Byte) : List Level :=
  .low :: (List.range 8).map (fun i => bitLevel (b.getLsbD i)) ++ [.high]

/-- The number eight sampled data bits spell, least significant first. -/
def bitsValue (l : List Level) : Nat :=
  l.foldr (fun b n => (if b = .high then 1 else 0) + 2 * n) 0

/-- What the receiver takes from the ten levels of a byte: a stop bit sampled low is a framing error, and
its data is not used (R164). -/
def rxOfLevels (l : List Level) : RxByte :=
  if l.getD 9 .high = .low then .framingError
  else .data (BitVec.ofNat 8 (bitsValue ((l.drop 1).take 8)))

/-- The levels a reply drives on TXD, bit time by bit time (R164, R184). -/
def Reply.levels (r : Reply) : List Level := r.frame.flatMap byteLevels

/-! ### Log record, 16 bytes (R187) -/

/-- Bytes 0 to 12 of a log record before padding (R187). -/
def LogBody.bytes : LogBody → List Byte
  | .exit kind flags seq residual temp peak tag =>
    [0x01] ++ u8 kind.code ++
      flagByte [flags.stranded, flags.wet, flags.underchilled, flags.overheated, tag.isSome] ++
      u16 seq.toNat ++ u16 residual ++ i16 temp ++ i16 peak ++ u16 (tag.getD 0)
  | .phase old new cause vMeas =>
    [0x02, 0x01] ++ u8 old.code ++ u8 new.code ++ u8 cause.code ++ u16 vMeas
  | .webBreak d position voided upstream =>
    [0x02, 0x02] ++ u8 (detectorNumber d) ++ u8 position ++ u8 voided ++ flagByte [upstream]
  | .runMark mark => [0x02, 0x03] ++ u16 mark
  | .filled vMeas => [0x02, 0x04] ++ u16 vMeas
  | .trip zone peak => [0x02, 0x05] ++ u8 zone ++ u16 peak
  | .port p back action =>
    [0x02, 0x06] ++ u8 (portCode p) ++ flagByte [back] ++ u8 action.code
  | .profile p n ph => [0x02, 0x07] ++ u8 (portCode p) ++ u8 n ++ u8 ph.code
  | .released p drops => [0x02, 0x08] ++ u8 (portCode p) ++ u16 drops
  | .restart p held drops => [0x02, 0x09] ++ u8 (portCode p) ++ u8 held ++ u16 drops

/-- The 16 bytes of a log record: unused detail bytes are 0 (R187). -/
def LogRecord.bytes (r : LogRecord) : List Byte :=
  (r.body.bytes ++ List.replicate 13 0).take 13 ++ u24 r.stamp.toNat

/-! ### Segment record as read, 12 bytes (R188) -/

/-- The 12 bytes of a segment record (R188). -/
def SegRecord.bytes (r : SegRecord) : List Byte :=
  u16 r.seq.toNat ++ u8 r.kind.code ++
    flagByte [r.stranded, false, false, false, r.tag.isSome] ++ u16 r.solvent ++
    optTemp (r.heat.map (·.temp)) ++ optTemp (r.heat.map (·.peak)) ++ u16 (r.tag.getD 0)

end Sys2Proof.Machine
end

