-- ==== Sys2Proof/Machine/Flags.lean ====
section
/-! DEFINITION. Notices: the pending sets, the level conditions and the NOTE lines
(R176 to R182), and the updaters of the state's blocks. -/
namespace Sys2Proof.Machine

/-! ### Updating one block of the state -/

def State.setTime (s : State) (x : TimeBase) : State := { s with time := x }
def State.setMotion (s : State) (x : Motion) : State := { s with motion := x }
def State.setRing (s : State) (x : Ring) : State := { s with ring := x }
def State.setLoad (s : State) (x : Load) : State := { s with load := x }
def State.setPwm (s : State) (x : Pwm) : State := { s with pwm := x }
def State.setEnv (s : State) (x : Envelope) : State := { s with env := x }
def State.setLine (s : State) (x : PhaseUnit) : State := { s with line := x }
def State.setBrk (s : State) (x : BreakUnit) : State := { s with brk := x }
def State.setArb (s : State) (x : Arbiter) : State := { s with arb := x }
def State.setLog (s : State) (x : TransitLog) : State := { s with log := x }
def State.setPorts (s : State) (x : PerPort PortState) : State := { s with ports := x }
def State.setProf (s : State) (x : ProfileUnit) : State := { s with prof := x }
def State.setPending (s : State) (x : List Instr) : State := { s with pending := x }

/-- The state of port `p`. -/
def State.port (s : State) (p : Port) : PortState := s.ports.get p

/-- `s` with port `p` changed by `f`. -/
def State.modPort (s : State) (p : Port) (f : PortState → PortState) : State :=
  s.setPorts (s.ports.set p (f (s.ports.get p)))

/-- `s` with every port changed by `f`. -/
def State.modPorts (s : State) (f : PortState → PortState) : State :=
  s.setPorts (PerPort.of (fun p => f (s.ports.get p)))

/-- A timer of `ms` milliseconds just started (R29). -/
def startMs (ms : Nat) : Timer := some (ms * 1000)

/-! ### Notice kinds (R186) -/

/-- The sixteen notice kinds (section 9.6). -/
inductive Notice where
  | phase | ceilingDrop | changeDone | logSkip | webBreak | portLost | runMark | exitFlag | excess
  | zoneHigh | logFrozen | loadWarn | loadTrip | logWatermark | stall | underchill
deriving DecidableEq, Repr

/-- A notice kind's bit (R186). -/
def Notice.bit : Notice → Nat
  | .phase => 0
  | .ceilingDrop => 1
  | .changeDone => 2
  | .logSkip => 3
  | .webBreak => 4
  | .portLost => 5
  | .runMark => 6
  | .exitFlag => 7
  | .excess => 8
  | .zoneHigh => 9
  | .logFrozen => 10
  | .loadWarn => 11
  | .loadTrip => 12
  | .logWatermark => 13
  | .stall => 14
  | .underchill => 15

/-- The set holding one kind. -/
def Notice.mask (k : Notice) : NoticeSet := 1#16 <<< k.bit

/-- The kind is in the set. -/
def Notice.inSet (k : Notice) (x : NoticeSet) : Bool := x &&& k.mask != 0

/-! ### The NOTE line -/

/-- Start a NOTE pulse, or restart the 20 µs of one in progress (R181). -/
def PortState.startPulse (q : PortState) : PortState :=
  { q with note := true, pulse := some Config.pulseLength }

/-- The NOTE line in LATCHED mode: asserted while a kind of the map is pending (R180). -/
def PortState.latchNote (q : PortState) : PortState :=
  { q with note := q.pendingSet &&& q.map != 0 }

/-- The NOTE line after kinds `entered` have entered the pending set (R180, R181). -/
def PortState.noteAfter (entered : NoticeSet) (q : PortState) : PortState :=
  match q.mode with
  | .latched => q.latchNote
  | .pulsed => if entered &&& q.map != 0 then q.startPulse else q

/-! ### Raising -/

/-- Put kind `k` into the port's pending set; a kind already there stays there once (R176). -/
def PortState.raise (k : Notice) (q : PortState) : PortState :=
  if k.inSet q.pendingSet then q
  else PortState.noteAfter k.mask { q with pendingSet := q.pendingSet ||| k.mask }

/-- Set whether level kind `k`'s condition holds; where it begins to hold, the kind becomes
pending (R177). -/
def PortState.setCondition (k : Notice) (holds : Bool) (q : PortState) : PortState :=
  let before := k.inSet q.holding
  if holds then
    let q1 := { q with holding := q.holding ||| k.mask }
    if before then q1 else q1.raise k
  else { q with holding := q.holding &&& ~~~k.mask }

/-- Empty the pending set and put the level kinds that hold back (R178, R182). -/
def PortState.emptyPending (q : PortState) : PortState :=
  PortState.noteAfter q.holding { q with pendingSet := q.holding }

/-- Raise `k` at port `p`. -/
def raiseAt (k : Notice) (p : Port) (s : State) : State := s.modPort p (PortState.raise k)

/-- Raise `k` at every port. -/
def raiseAll (k : Notice) (s : State) : State := s.modPorts (PortState.raise k)

/-- Raise `k` at the two ports other than `p` (R173). -/
def raiseOthers (k : Notice) (p : Port) (s : State) : State :=
  s.setPorts (PerPort.of (fun q => if q = p then s.ports.get q else (s.ports.get q).raise k))

/-- Set level kind `k`'s condition at every port. -/
def setConditionAll (k : Notice) (holds : Bool) (s : State) : State :=
  s.modPorts (PortState.setCondition k holds)

end Sys2Proof.Machine
end

