-- ==== Sys2Proof/Machine/Ops.lean ====
section
/-! DEFINITION. Operations several blocks share: exact arithmetic (00_scope, "Arithmetic"),
appending to the transit log (R151, R152, R158, R159), replies (R169). -/
namespace Sys2Proof.Machine

/-! ### Arithmetic -/

/-- ceil(a / b). -/
def ceilDiv (a b : Nat) : Nat := (a + b - 1) / b

/-- `v` clamped into `lo` to `hi`, the upper bound applied last. -/
def clampInt (lo hi v : Int) : Int := min (max v lo) hi

/-- `v` clamped into `lo` to `hi`, the upper bound applied last. -/
def clampNat (lo hi v : Nat) : Nat := min (max v lo) hi

/-- |a - b|. -/
def absDiff (a b : Int) : Nat := (a - b).natAbs

/-- A reported temperature clamped into -400 to 3500 (R4). -/
def clampTemp (v : Int) : Int := clampInt (-400) 3500 v

/-! ### Phases -/

/-- HEATING, READY, PRINTING and DRAINING (chapter 5). -/
def Phase.heated : Phase → Bool
  | .heating => true
  | .ready => true
  | .printing => true
  | .draining => true
  | .unconfigured => false
  | .cold => false
  | .purge => false
  | .webBreak => false
  | .safe => false

/-! ### The transit log -/

/-- Port `p`'s WATERMARK in force: the default 32 until the first commit (R156), then the one the last
commit took (R195). -/
def State.watermark (s : State) (p : Port) : Nat := (s.ports.get p).watermark

/-- Re-evaluate every port's LOG_WATERMARK condition (R156). -/
def evalWatermarks (s : State) : State :=
  s.setPorts (PerPort.of (fun p =>
    (s.ports.get p).setCondition .logWatermark
      (decide (s.watermark p ≤ s.log.unread.get p))))

/-- Port `p`'s cursor stands at the oldest record of a full log, so an append discards a record that
was unread there (R152). -/
def TransitLog.discardsUnread (l : TransitLog) (p : Port) : Bool :=
  decide (Config.logCapacity ≤ l.records.length) && l.unread.get p == l.records.length

/-- The log with a record appended, the oldest discarded first where it is full (R151, R152). -/
def TransitLog.place (l : TransitLog) (r : LogRecord) : TransitLog :=
  { l with
    records :=
      (if Config.logCapacity ≤ l.records.length then l.records.drop 1 else l.records) ++ [r]
    unread := PerPort.of (fun p =>
      if l.discardsUnread p then l.unread.get p else l.unread.get p + 1)
    skip := PerPort.of (fun p =>
      if l.discardsUnread p then min 255 (l.skip.get p + 1) else l.skip.get p) }

/-- Raise LOG_SKIP at the ports whose unread record the next append discards (R152). -/
def raiseSkips (s : State) : State :=
  s.setPorts (PerPort.of (fun p =>
    if s.log.discardsUnread p then (s.ports.get p).raise .logSkip else s.ports.get p))

/-- Append a record, stamped with TIME_MS (R151). -/
def logPlace (body : LogBody) (s : State) : State :=
  let s1 := raiseSkips s
  evalWatermarks (s1.setLog (s1.log.place { body := body, stamp := s.time.ms }))

/-- Hand a record to the log: kept in OPEN, kept and counted in ARMED (R158), dropped in FROZEN
(R159). -/
def logAppend (body : LogBody) (s : State) : State :=
  match s.log.freeze with
  | .frozen => s.setLog { s.log with drops := min 65535 (s.log.drops + 1) }
  | .opened => logPlace body s
  | .armed r =>
    let s1 := logPlace body s
    if r = 0 then raiseAll .logFrozen (s1.setLog { s1.log with freeze := .frozen })
    else s1.setLog { s1.log with freeze := .armed (r - 1) }

/-! ### Replies -/

/-- Microseconds a reply with a payload of `k` bytes occupies the line: k + 5 byte times of ten bits
at 230,400 baud (R164, R169), rounded up (log 8). -/
def replyTime (k : Nat) : Nat := ceilDiv ((k + 5) * 10 * 1000000) 230400

/-- The bit time that runs `us` whole microseconds after a reply's start, at 230,400 bits a second (R164,
log 19). -/
def bitAt (us : Nat) : Nat := us * 230400 / 1000000

/-- The level of a port's TXD line: the reply's bit in its turn, high while nothing is sent (R164). -/
def PortState.txd (q : PortState) : Level :=
  match q.tx, q.txTimer with
  | some r, some left => r.levels.getD (bitAt (replyTime r.payload.length - left)) .high
  | some _, none => .high
  | none, _ => .high

/-- A port starts sending a reply (R169). -/
def PortState.transmit (r : Reply) (q : PortState) : PortState :=
  { q with tx := some r, txTimer := some (replyTime r.payload.length) }

/-- A reply built: it starts on an idle transmitter, and otherwise becomes the waiting reply,
replacing one that waited (R169). -/
def PortState.sendReply (r : Reply) (q : PortState) : PortState :=
  match q.tx with
  | none => q.transmit r
  | some _ => { q with waiting := some r }

/-- The reply's kind is the request's with 0x80 set (R168). -/
def replyTo (kind : Byte) (payload : List Byte) : Reply :=
  { kind := kind ||| 0x80, payload := payload }

/-- Port `p` answers a frame of kind `kind`. -/
def answer (p : Port) (kind : Byte) (payload : List Byte) (s : State) : State :=
  s.modPort p (PortState.sendReply (replyTo kind payload))

/-- A reply that carries its result code alone. -/
def codeOnly (r : Result) : List Byte := [r.code]

/-! ### Ports -/

/-- Port `p`'s WINDOW in ms, the default 500 while no profile is committed (R172). -/
def State.windowMs (s : State) (p : Port) : Nat :=
  match s.prof.committed with
  | some pr => (pr.ports.get p).window
  | none => Config.defaultWindow

/-- All three ports are ACTIVE (R85, R88, R104). -/
def State.allActive (s : State) : Bool :=
  s.ports.line.live == .active && s.ports.dryer.live == .active && s.ports.chill.live == .active

/-- Port `p` is LOST with loss action LIMIT (R54, R69). -/
def State.lostUnderLimit (s : State) (p : Port) : Bool :=
  (s.port p).live == .lost && (s.port p).action == .limit

/-- Set the floor duty anew (R54, R55). -/
def floorDuty (s : State) : Nat :=
  match s.prof.committed with
  | none => 256
  | some pr =>
    let forced :=
      s.line.phase == .unconfigured || s.line.phase == .webBreak || s.line.phase == .safe ||
      decide (pr.loadTrip ≤ s.load.peak) ||
      (s.load.flow == 0 && s.ring.release.any (fun r => decide (0 < r))) ||
      s.lostUnderLimit .dryer
    if forced then 256
    else
      match s.line.phase with
      | .cold => pr.dutyCold
      | .purge => pr.purgeDuty
      | .heating => max s.load.baseDuty pr.dutyMin
      | .ready => max s.load.baseDuty pr.dutyMin
      | .printing => max s.load.baseDuty pr.dutyMin
      | .draining => max s.load.baseDuty pr.dutyMin
      | .unconfigured => 256
      | .webBreak => 256
      | .safe => 256

/-- The load unit sets the floor duty anew (R55). -/
def setFloorDuty (s : State) : State := s.setLoad { s.load with floorDuty := floorDuty s }

/-- The level of the EXH_FLOOR line (R56): high for the high time of the running period. A high
time of the whole period leaves no low instant. -/
def State.exhFloorHigh (s : State) : Bool :=
  decide (s.pwm.elapsed < s.pwm.highTime) || decide (Config.pwmPeriod ≤ s.pwm.highTime)

end Sys2Proof.Machine
end

