-- ==== Sys2Proof/Machine/RingUnit.lean ====
section
/-! DEFINITION. The transit ring: the segment computation (R12 to R14), the ADVANCE and DWELL steps
(R15 to R22), the void, strand and restore operations (R23 to R25), the rebuild (R10). -/
namespace Sys2Proof.Machine

/-! ### Segment computation -/

/-- k_eff (R12). -/
def kEff (pr : Profile) (t : Nat) (z : ZoneItems) : Nat := min 256 (z.kHeat * t / pr.tRef)

/-- e_eff (R12). -/
def eEff (pr : Profile) (t : Nat) (z : ZoneItems) : Nat := min 256 (z.kRelease * t / pr.tRef)

/-- One application of R13 to a temperature, in a zone at temperature `a`. -/
def heatOnce (k : Nat) (a temp : Int) : Int := temp + Int.tdiv ((a - temp) * k) 256

/-- Heating of one record (R13); VOID records are skipped. -/
def heatRecord (k : Nat) (a : Int) (r : SegRecord) : SegRecord :=
  if r.kind = .void then r
  else
    match r.heat with
    | none => r
    | some h =>
      let t' := heatOnce k a h.temp
      { r with heat := some { temp := t', peak := max h.peak t' } }

/-- The record releases solvent at this step: PRINTED, in a DRYER zone, at or above RELEASE_TEMP
after heating, with solvent left (R14). -/
def releases (pr : Profile) (z : ZoneItems) (r : SegRecord) : Bool :=
  r.kind == .printed && z.kind == .dryer && decide (0 < r.solvent) &&
    (match r.heat with
     | some h => decide (pr.releaseTemp ≤ h.temp)
     | none => false)

/-- What a heated record releases at this step (R14). -/
def releasedOf (pr : Profile) (t : Nat) (z : ZoneItems) (r : SegRecord) : Nat :=
  if releases pr z r then ceilDiv (r.solvent * eEff pr t z) 256 else 0

/-- A position of the ring: its zone's number and entry. -/
structure Place where
  zone : Nat
  entry : ZoneItems
deriving DecidableEq, Repr

/-- The places of zones `z`, `z + 1`, … with the given entries (R3). -/
def placesFrom (z : Nat) : List ZoneItems → List Place
  | [] => []
  | e :: rest => List.replicate e.span { zone := z, entry := e } ++ placesFrom (z + 1) rest

/-- The places of positions 0 to N-1 (R3). -/
def Profile.places (pr : Profile) : List Place := placesFrom 0 pr.used

/-- A record computed at one step, with its zone and what it released. -/
structure Computed where
  zone : Nat
  record : SegRecord
  released : Nat
deriving DecidableEq, Repr

/-- The segment computation of one record at its place (R12 to R14). -/
def computeRecord (pr : Profile) (inputs : List Int) (t : Nat) (pl : Place) (r : SegRecord) :
    Computed :=
  let r1 := heatRecord (kEff pr t pl.entry) (inputs.getD pl.zone 0) r
  let out := releasedOf pr t pl.entry r1
  { zone := pl.zone, record := { r1 with solvent := r1.solvent - out }, released := out }

/-- The segment computation of every record at its present position (R11). -/
def computeAll (pr : Profile) (rg : Ring) (t : Nat) : List Computed :=
  List.zipWith (computeRecord pr rg.inputs t) pr.places rg.records

/-- The release sum of zone `z` (R22). -/
def releaseSum (cs : List Computed) (z : Nat) : Nat :=
  ((cs.filter (fun c => c.zone == z)).map (·.released)).sum

/-- The release sums of the DRYER zones (R22). -/
def releaseSums (pr : Profile) (cs : List Computed) : List Nat :=
  (List.range pr.dryers.length).map (releaseSum cs)

/-! ### The ADVANCE step -/

/-- The exit flags (R16). -/
def exitFlags (pr : Profile) (r : SegRecord) (h : SegHeat) : ExitFlags where
  wet := decide (pr.wetLimit < r.solvent)
  underchilled := decide (pr.setLimit < h.temp)
  overheated := decide (pr.blisterLimit < h.peak)
  stranded := r.stranded

/-- EXIT_FLAG is raised: a PRINTED exit record that is WET, UNDERCHILLED or OVERHEATED (R17). -/
def raisesExitFlag (kind : SegKind) (f : ExitFlags) : Bool :=
  kind == .printed && (f.wet || f.underchilled || f.overheated)

/-- Hand-off of the record leaving position N-1 (R16, R17); a VOID record leaves silently. -/
def handOff (pr : Profile) (r : SegRecord) (s : State) : State :=
  if r.kind = .void then s
  else
    match r.heat with
    | none => s
    | some h =>
      let f := exitFlags pr r h
      let s1 := logAppend (.exit r.kind f r.seq r.solvent h.temp h.peak r.tag) s
      if raisesExitFlag r.kind f then raiseAll .exitFlag s1 else s1

/-- The record entering at position 0 (R19). -/
def enteringRecord (pr : Profile) (rg : Ring) (ph : Phase) : SegRecord where
  seq := rg.entryCounter
  kind := if ph = .printing then .printed else .blank
  solvent := if ph = .printing then rg.charge else 0
  heat := some { temp := pr.ambient, peak := pr.ambient }
  stranded := false
  tag := rg.tag

/-- The ring after an ADVANCE of step time `t` taken in phase `ph` (R15, R18, R19, R22). -/
def advanceRing (pr : Profile) (ph : Phase) (t : Nat) (rg : Ring) : Ring :=
  let cs := computeAll pr rg t
  let new := enteringRecord pr rg ph
  { rg with
    records := new :: (cs.map (·.record)).dropLast
    entryCounter := rg.entryCounter + 1
    release := releaseSums pr cs
    lastKind := .advance
    lastT := t
    lastEntry := some { kind := new.kind, phase := ph } }

/-- The ADVANCE step at the ring (R15): computation, hand-off, rotation, entry, publication. -/
def ringAdvance (pr : Profile) (t : Nat) (s : State) : State :=
  let s1 :=
    match ((computeAll pr s.ring t).map (·.record)).getLast? with
    | some r => handOff pr r s
    | none => s
  s1.setRing (advanceRing pr s.line.phase t s.ring)

/-! ### The DWELL step -/

/-- The stranding rule of a DWELL step for one record in zone entry `z` (R20). -/
def strandHot (pr : Profile) (z : ZoneItems) (r : SegRecord) : SegRecord :=
  if r.kind ≠ .void ∧ z.kind = .dryer then
    match r.heat with
    | some h => if pr.releaseTemp ≤ h.temp then { r with stranded := true } else r
    | none => r
  else r

/-- The ring after a DWELL of step time `t` (R20, R22). -/
def dwellRing (pr : Profile) (t : Nat) (rg : Ring) : Ring :=
  let cs := computeAll pr rg t
  { rg with
    records := List.zipWith (fun pl c => strandHot pr pl.entry c.record) pr.places cs
    release := releaseSums pr cs
    lastKind := .dwell
    lastT := t
    lastEntry := none }

/-! ### Void, strand, restore (R23 to R25) -/

/-- One record made VOID (R23). -/
def voidRecord (r : SegRecord) : SegRecord :=
  if r.kind = .void then r
  else { r with kind := .void, solvent := 0, heat := none, tag := none }

/-- The records after the void operation at `p` (R23). -/
def voidFrom (p : Nat) (l : List SegRecord) : List SegRecord :=
  l.take (p + 1) ++ (l.drop (p + 1)).map voidRecord

/-- Number of PRINTED records the void operation at `p` makes VOID (R23). -/
def voidCount (p : Nat) (l : List SegRecord) : Nat :=
  ((l.drop (p + 1)).filter (fun r => r.kind == .printed)).length

/-- The records after the strand operation at `p` (R24). -/
def strandTo (pr : Profile) (p : Nat) (l : List SegRecord) : List SegRecord :=
  let n := min (p + 1) pr.dryerLength
  (l.take n).map (fun r => if r.kind = .void then r else { r with stranded := true }) ++ l.drop n

/-- One record restored (R25). -/
def restoreRecord (pr : Profile) (r : SegRecord) : SegRecord :=
  if r.kind = .void then
    { r with
      kind := .blank, solvent := 0, heat := some { temp := pr.ambient, peak := pr.ambient },
      tag := none }
  else r

/-! ### Rebuild (R10) -/

/-- The records of a rebuilt ring of length `n` (R10). -/
def rebuiltRecords (ambient : Int) (n : Nat) : List SegRecord :=
  (List.range n).map (fun p =>
    { seq := BitVec.ofNat 16 (n - 1 - p), kind := .blank, solvent := 0,
      heat := some { temp := ambient, peak := ambient }, stranded := false, tag := none })

/-- The ring rebuilt under profile `pr`, its zone inputs kept (R10). -/
def rebuildRing (pr : Profile) (rg : Ring) : Ring :=
  { rg with
    records := rebuiltRecords pr.ambient pr.ringLength
    entryCounter := BitVec.ofNat 16 pr.ringLength
    release := List.replicate pr.dryers.length 0
    lastKind := .none
    lastT := 0
    lastEntry := none }

end Sys2Proof.Machine
end

