-- ==== Sys2Proof/Machine/EnvelopeUnit.lean ====
section
/-! DEFINITION. The envelope unit: the chill trial (R62, R63), the ceiling (R64 to R69), heat caps
(R73), the predicted exit temperature (R76), the recomputation and its notices (R70, R72, R77). -/
namespace Sys2Proof.Machine

/-! ### The chill trial -/

/-- `n` applications of the heating of R13 to one temperature. -/
def heatTimes (k : Nat) (a : Int) : Nat → Int → Int
  | 0, temp => temp
  | n + 1, temp => heatTimes k a n (heatOnce k a temp)

/-- A CHILL zone's entry with the roll temperature a trial uses for it. -/
structure Roll where
  entry : ZoneItems
  temp : Int
deriving DecidableEq, Repr

/-- The chill trial from `start` at step time `t` (R62). -/
def chillTrial (pr : Profile) (rolls : List Roll) (t : Nat) (start : Int) : Int :=
  rolls.foldl (fun temp r => heatTimes (kEff pr t r.entry) r.temp r.entry.span temp) start

/-- The CHILL zones with the temperatures `inputs` holds for them. -/
def rollsOf (pr : Profile) (inputs : List Int) : List Roll :=
  List.zipWith (fun e a => { entry := e, temp := a }) pr.chills (inputs.drop pr.dryers.length)

/-- The result of a trial from an optional start: AMBIENT from an absent one (R63). -/
def trialResult (pr : Profile) (rolls : List Roll) (t : Nat) : Option Int → Int
  | none => pr.ambient
  | some start => chillTrial pr rolls t start

/-- The trial passes; one from an absent start passes (R62, R63). -/
def trialPasses (pr : Profile) (rolls : List Roll) (t : Nat) : Option Int → Bool
  | none => true
  | some start => decide (chillTrial pr rolls t start ≤ pr.setLimit)

/-- The greatest of a list of temperatures, none for the empty list. -/
def greatestTemp : List Int → Option Int
  | [] => none
  | x :: rest =>
    match greatestTemp rest with
    | none => some x
    | some y => some (max x y)

/-- The temperature of a PRINTED or BLANK record. -/
def SegRecord.temp? (r : SegRecord) : Option Int :=
  if r.kind = .void then none else r.heat.map (·.temp)

/-- T_in: the hottest PRINTED or BLANK record in the last DRYER zone (R63). -/
def chillEntry (pr : Profile) (records : List SegRecord) : Option Int :=
  let first := pr.zoneStart (pr.dryers.length - 1)
  greatestTemp
    (((records.take pr.dryerLength).drop first).filterMap SegRecord.temp?)

/-! ### Ceiling components -/

/-- PHASE component (R65). -/
def phaseComponent (pr : Profile) : Phase → Nat
  | .cold => pr.crawlLimit
  | .purge => pr.crawlLimit
  | .heating => pr.crawlLimit
  | .ready => pr.speedMax
  | .printing => pr.speedMax
  | .draining => pr.speedMax
  | .unconfigured => 0
  | .webBreak => 0
  | .safe => 0

/-- VAPOUR component, none where it is not applied (R67). -/
def vapourComponent (pr : Profile) (s : State) : Option Nat :=
  if s.ring.lastKind = .advance ∧ pr.crawlLimit ≤ s.motion.vMeas ∧ 0 < s.load.peak then
    some (max pr.crawlLimit (s.motion.vMeas * pr.loadHold / s.load.peak))
  else none

/-- The greatest of `lo`, …, `lo + n` that passes, if one does. -/
def greatestFrom (pass : Nat → Bool) (lo : Nat) : Nat → Option Nat
  | 0 => if pass lo then some lo else none
  | n + 1 => if pass (lo + (n + 1)) then some (lo + (n + 1)) else greatestFrom pass lo n

/-- Step time of a speed in 0.1 m/min (R68). -/
def stepTimeAt (pr : Profile) (v : Nat) : Nat := pr.segLength * 600000 / v

/-- CHILL component (R68). -/
def chillComponent (pr : Profile) (inputs : List Int) (tIn : Option Int) : Nat :=
  let lo := max 1 pr.crawlLimit
  let pass := fun v => trialPasses pr (rollsOf pr inputs) (stepTimeAt pr v) tIn
  (greatestFrom pass lo (pr.speedMax - lo)).getD pr.crawlLimit

/-- PORT component (R69). -/
def portComponent (pr : Profile) (s : State) : Option Nat :=
  if s.lostUnderLimit .dryer || s.lostUnderLimit .chill then some pr.crawlLimit else none

/-- The six components as they stand (R64 to R69). -/
def components (pr : Profile) (s : State) (tIn : Option Int) : Components where
  max := some pr.speedMax
  phase := some (phaseComponent pr s.line.phase)
  fill := if 0 < s.line.fill then some pr.fillSpeed else none
  vapour := vapourComponent pr s
  chill := some (chillComponent pr s.ring.inputs tIn)
  port := portComponent pr s

/-- A ceiling with the component that gave it. -/
structure Bound where
  value : Nat
  limiter : Limiter
deriving DecidableEq, Repr

/-- The lesser of a bound and a component; an equal component leaves the earlier limiter (R64). -/
def Bound.meet (b : Bound) (l : Limiter) : Option Nat → Bound
  | some v => if v < b.value then { value := v, limiter := l } else b
  | none => b

/-- Ceiling and limiter: the least applied component, the first in the tie order (R64). -/
def leastBound (speedMax : Nat) (c : Components) : Bound :=
  ((((Bound.meet { value := speedMax, limiter := .max } .phase c.phase).meet
    .fill c.fill).meet .vapour c.vapour).meet .chill c.chill).meet .port c.port

/-! ### Heat caps and prediction -/

/-- The heat cap of a DRYER zone (R73). -/
def heatCap (pr : Profile) (ph : Phase) (idle : Bool) (z : ZoneItems) : Int :=
  if ph.heated then (if idle then min z.setMax pr.idleTemp else z.setMax) else 0

/-- Step time of the predicted exit temperature (R76). -/
def predictionTime (pr : Profile) (m : Motion) : Nat :=
  if m.state = .moving ∧ 0 < m.tStep then m.tStep else pr.tRef

/-- The envelope with no profile committed (R64, R73, R76, R77, R79). -/
def emptyEnvelope (e : Envelope) : Envelope :=
  { e with
    tIn := none
    comps :=
      { max := none, phase := none, fill := none, vapour := none, chill := none, port := none }
    ceiling := 0
    limiter := .phase
    heatCaps := []
    predicted := none
    underchill := false }

/-- The envelope recomputed from the state as it stands (R63 to R69, R73, R76, R77). -/
def envelopeOf (s : State) : Envelope :=
  match s.prof.committed with
  | none => emptyEnvelope s.env
  | some pr =>
    let tIn := chillEntry pr s.ring.records
    let comps := components pr s tIn
    let b := leastBound pr.speedMax comps
    let rolls := rollsOf pr s.ring.inputs
    let t := predictionTime pr s.motion
    { tIn := tIn
      comps := comps
      ceiling := b.value
      limiter := b.limiter
      heatCaps := pr.dryers.map (heatCap pr s.line.phase s.env.idle)
      idle := s.env.idle
      predicted := some (trialResult pr rolls t tIn)
      underchill := !(trialPasses pr rolls t tIn) }

/-- The recomputation lowers the ceiling from at or above v_meas to below it (R72). -/
def ceilingDrops (vMeas old new : Nat) : Bool := decide (vMeas ≤ old) && decide (new < vMeas)

/-- The envelope unit recomputes (R70), with its notices (R72, R77). -/
def recompute (s : State) : State :=
  let e := envelopeOf s
  let s1 := s.setEnv e
  let s2 :=
    if ceilingDrops s.motion.vMeas s.env.ceiling e.ceiling then raiseAll .ceilingDrop s1 else s1
  setConditionAll .underchill e.underchill s2

/-- The envelope unit's idle flag set or cleared (R74). -/
def setIdle (b : Bool) (s : State) : State := s.setEnv { s.env with idle := b }

end Sys2Proof.Machine
end

