-- ==== Sys2Proof/Machine/PhaseOps.lean ====
section
/-! DEFINITION. How changes end (R147, R145, R146), how the phase changes (R81 to R83, R103), the
ready test (R86, R87), the drain (R92, R93). Every operation here leaves arbitration passes to its
caller (log 9). -/
namespace Sys2Proof.Machine

/-! ### Ends of changes (R142, R147) -/

/-- The port that owns a kind of change (R125). -/
def keyOwner : ChangeKey → Port
  | .speed => .line
  | .exhaust => .dryer
  | .zone _ => .dryer
  | .chill _ => .chill

/-- Store a change's outcome and raise CHANGE_DONE at its owner (R147). -/
def storeOutcome (o : ChangeOutcome) (s : State) : State :=
  raiseAt .changeDone (keyOwner o.key)
    (s.setArb { s.arb with outcomes := s.arb.outcomes.set (keyOwner o.key) (some o) })

/-- The change in flight ends (R142, R147); the value stored is the granted one. -/
def endInFlight (reason : EndReason) (s : State) : State :=
  match s.arb.inFlight with
  | none => s
  | some c =>
    storeOutcome { key := c.key, arrival := c.arrival, value := c.granted, reason := reason }
      (s.setArb { s.arb with inFlight := none, settleCount := 0, settleTimer := none })

/-- The outcome of a pending entry that ends: the value stored is the admitted one (R147). -/
def PendingEntry.outcome (e : PendingEntry) (reason : EndReason) : ChangeOutcome :=
  { key := e.key, arrival := e.arrival, value := e.value, reason := reason }

/-- Store the outcomes of `l`, in list order. -/
def storeEnds (reason : EndReason) : List PendingEntry → State → State
  | [], s => s
  | e :: rest, s => storeEnds reason rest (storeOutcome (e.outcome reason) s)

/-- Every pending entry that `sel` picks ends, in list order. -/
def endPending (sel : PendingEntry → Bool) (reason : EndReason) (s : State) : State :=
  storeEnds reason (s.arb.list.filter sel)
    (s.setArb { s.arb with list := s.arb.list.filter (fun e => !sel e) })

/-- The abort: the change in flight, then every pending entry, ABORTED (R146). -/
def abortChanges (s : State) : State :=
  endPending (fun _ => true) .aborted (endInFlight .aborted s)

/-! ### HELD and QUEUED (R134) -/

/-- Setpoint record of zone `z` (R99). -/
def State.setpoint (s : State) (z : Nat) : Int := s.line.setpoints.getD z 0

/-- The entry is a ZONE entry whose admitted value lies below its zone's setpoint. -/
def belowSetpoint (s : State) (key : ChangeKey) (value : Int) : Bool :=
  match key with
  | .zone z => decide (value < s.setpoint z)
  | .speed => false
  | .exhaust => false
  | .chill _ => false

/-- On entry to DRAINING a QUEUED ZONE decrease becomes HELD (R134). -/
def holdEntry (s : State) (e : PendingEntry) : PendingEntry :=
  if e.status = .queued ∧ belowSetpoint s e.key e.value then
    { e with status := .held, timer := none }
  else e

/-- When the phase leaves DRAINING a HELD entry becomes QUEUED, its waiting timer from 0 (R134). -/
def releaseEntry (limit : Timer) (e : PendingEntry) : PendingEntry :=
  if e.status = .held then { e with status := .queued, timer := limit } else e

/-- A started waiting timer (R135). -/
def State.waitingStart (s : State) : Timer :=
  match s.prof.committed with
  | some pr => startMs pr.pendingLimit
  | none => none

/-- What the arbiter does at a phase change (R103, R134). -/
def arbiterPhaseChange (old new : Phase) (s : State) : State :=
  if new = .safe then abortChanges s
  else if new = .draining then s.setArb { s.arb with list := s.arb.list.map (holdEntry s) }
  else if old = .draining then
    s.setArb { s.arb with list := s.arb.list.map (releaseEntry s.waitingStart) }
  else s

/-! ### The phase change (R81) -/

/-- The ready result on entry to `new` (R86); on entry to SAFE R86 and R103 disagree (log 5). -/
def readyOnEntry (new : Phase) (r : ReadyResult) : ReadyResult :=
  match new with
  | .heating => r
  | .ready => r
  | .draining => r
  | .safe => if Config.safeKeepsReady then r else .fails
  | .unconfigured => .fails
  | .cold => .fails
  | .purge => .fails
  | .printing => .fails
  | .webBreak => .fails

/-- The stall grace timer after a change from `old` to `new` (R81, R94). -/
def stallGraceOnChange (s : State) (old new : Phase) : Timer :=
  if new.heated then
    if old.heated then s.line.stallGrace
    else if s.motion.state = .still then
      (match s.prof.committed with
       | some pr => startMs pr.stallGrace
       | none => none)
    else none
  else none

/-- The phase unit's state after a change to `new` (R58, R81, R82, R83, R86, R94, R96). -/
def lineOnChange (s : State) (new : Phase) (cause : Cause) : PhaseUnit :=
  let l := s.line
  let old := l.phase
  { l with
    phase := new
    cause := cause
    ready := readyOnEntry new l.ready
    fill := if old = .printing then 0 else l.fill
    run := if old = .printing then none else l.run
    drain := if old = .draining then 0 else l.drain
    stallGrace := stallGraceOnChange s old new
    excess := if new.heated then l.excess else none
    purgeTimer := if new = .purge then some Config.purgeLength else none
    purgeVolume := 0
    heatInhibit := !new.heated
    permit := new == .ready || new == .printing }

/-- p_b is removed at a change out of BREAK (R116). -/
def breakOnChange (old : Phase) (b : BreakUnit) : BreakUnit :=
  if old = .webBreak then { b with pb := none } else b

/-- The idle flag is cleared by a change into a phase that is not heated (R74). -/
def idleOnChange (new : Phase) (idle : Bool) : Bool := if new.heated then idle else false

/-- A phase change to `new`, taken whole (R81): the PHASE record, the PHASE notice, the lines and
counts, the load unit, the envelope unit and the arbiter. The phase it already holds stays. -/
def phaseWrite (new : Phase) (cause : Cause) (s : State) : State :=
  if s.line.phase = new then s
  else
    let old := s.line.phase
    let s1 := raiseAll .phase (logAppend (.phase old new cause s.motion.vMeas) s)
    let s2 := (s1.setLine (lineOnChange s new cause)).setBrk (breakOnChange old s.brk)
    let s3 := setFloorDuty s2
    let s4 := recompute (setIdle (idleOnChange new s3.env.idle) s3)
    arbiterPhaseChange old new s4

/-! ### The ready test (R86, R87) -/

/-- Every zone's temperature input lies within TOL of its setpoint. -/
def zonesInTolerance : List ZoneItems → List Int → List Int → Bool
  | [], _, _ => true
  | e :: es, inputs, setpoints =>
    decide (absDiff (inputs.headD 0) (setpoints.headD 0) ≤ e.tol) &&
      zonesInTolerance es inputs.tail setpoints.tail

/-- The ready test (R86). -/
def readyTest (pr : Profile) (s : State) : Bool :=
  zonesInTolerance pr.dryers s.ring.inputs s.line.setpoints &&
    decide (pr.flowReady ≤ s.load.flow) &&
    (rollsOf pr s.ring.inputs).all (fun r => decide (r.temp ≤ pr.chillReady))

/-- The ready test on the state as it stands; it fails where no profile is committed. -/
def State.isReady (s : State) : Bool :=
  match s.prof.committed with
  | some pr => readyTest pr s
  | none => false

/-- Write the ready result. -/
def writeReady (b : Bool) (s : State) : State :=
  s.setLine { s.line with ready := if b then .holds else .fails }

/-- A change to HEATING, and on to READY where the test evaluated on entry holds (R87). -/
def enterHeating (cause : Cause) (s : State) : State :=
  let s1 := phaseWrite .heating cause s
  let s2 := writeReady s1.isReady s1
  if s1.isReady then phaseWrite .ready .readyMet s2 else s2

/-- The ready test is evaluated, in the phases that evaluate it (R86, R87). -/
def evaluateReady (s : State) : State :=
  let s1 := writeReady s.isReady s
  match s.line.phase with
  | .heating => if s.isReady then phaseWrite .ready .readyMet s1 else s1
  | .ready => if s.isReady then s1 else enterHeating .readyLost s1
  | .draining => s1
  | .unconfigured => s
  | .cold => s
  | .purge => s
  | .printing => s
  | .webBreak => s
  | .safe => s

/-! ### The drain (R92, R93) -/

/-- The drain ends (R93). -/
def endDrain (s : State) : State :=
  let s1 := writeReady s.isReady s
  if s.isReady then phaseWrite .ready .drainDone s1 else enterHeating .drainDone s1

/-- N - p_y, or 0 where the ring holds no PRINTED record (R92). -/
def drainCount (pr : Profile) (records : List SegRecord) : Nat :=
  match records.findIdx? (fun r => r.kind == .printed) with
  | some py => pr.ringLength - py
  | none => 0

/-- The drain count of the ring as it stands. -/
def State.drainNow (s : State) : Nat :=
  match s.prof.committed with
  | some pr => drainCount pr s.ring.records
  | none => 0

/-- A change to DRAINING with its drain count; a drain of 0 ends at once (R92, R93). -/
def enterDraining (cause : Cause) (s : State) : State :=
  let s1 := phaseWrite .draining cause s
  let s2 := s1.setLine { s1.line with drain := s1.drainNow }
  if s1.drainNow = 0 then endDrain s2 else s2

/-- SAFE from every phase but UNCONFIGURED and SAFE (R102, R103). -/
def enterSafe (cause : Cause) (s : State) : State :=
  if s.line.phase = .unconfigured then s else phaseWrite .safe cause s

end Sys2Proof.Machine
end

