-- ==== Sys2Proof/Machine/LoadUnit.lean ====
section
/-! DEFINITION. The load unit: vapour loads (R45 to R48), thresholds (R49), the trip-step counter and
the load trip (R50, R51), exhaust demand and base duty (R52, R53). -/
namespace Sys2Proof.Machine

/-- F_z (R45). -/
def zoneFlow (flow : Nat) (z : ZoneItems) : Nat := flow * z.share / 256

/-- The vapour load of a zone with release sum `r` and flow `fz` (R46). -/
def vapourLoad (cLim t r fz : Nat) : Nat :=
  if r = 0 then 0
  else if fz = 0 then 4000
  else min 4000 (ceilDiv (r * 1000000000) (t * fz * cLim))

/-- The vapour loads of the DRYER zones from the last step published (R46, R48). -/
def vapourLoads (pr : Profile) (flow t : Nat) (release : List Nat) : List Nat :=
  List.zipWith (fun z r => vapourLoad pr.cLim t r (zoneFlow flow z)) pr.dryers release

/-- The greatest of a list of loads (R47). -/
def greatestLoad (l : List Nat) : Nat := l.foldl max 0

/-- The lowest-numbered zone whose load is `peak`; zone 0 where there is none (R47). -/
def firstAt (peak : Nat) (l : List Nat) : Nat := (l.findIdx? (fun x => x == peak)).getD 0

/-- F_req (R52). -/
def exhaustDemand (pr : Profile) (flow peak : Nat) : Nat :=
  min 65535 (ceilDiv (flow * peak) pr.loadTarget)

/-- The base duty (R53). -/
def baseDutyOf (pr : Profile) (fReq : Nat) : Nat := min 256 (ceilDiv (fReq * 256) pr.flowFull)

/-- The loads, peak, demand and base duty from flow `flow` and the ring's publication (R46 to R48,
R52, R53). -/
def loadsOf (pr : Profile) (rg : Ring) (flow : Nat) (l : Load) : Load :=
  let loads := vapourLoads pr flow rg.lastT rg.release
  let peak := greatestLoad loads
  let fReq := exhaustDemand pr flow peak
  { l with
    flow := flow
    loads := loads
    peak := peak
    peakZone := firstAt peak loads
    fReq := fReq
    baseDuty := baseDutyOf pr fReq }

/-- Re-evaluate the LOAD_WARN and LOAD_TRIP conditions (R49). -/
def evalLoadConditions (s : State) : State :=
  match s.prof.committed with
  | none => setConditionAll .loadTrip false (setConditionAll .loadWarn false s)
  | some pr =>
    setConditionAll .loadTrip (decide (pr.loadTrip ≤ s.load.peak))
      (setConditionAll .loadWarn (decide (pr.loadWarn ≤ s.load.peak)) s)

/-- The trip-step counter after a step (R50). -/
def tripCountAfter (pr : Profile) (l : Load) : Nat :=
  if pr.loadTrip ≤ l.peak then min 255 (l.tripCount + 1) else 0

/-- The step is a load trip: the counter reaches TRIP_GRACE at it (R51). -/
def tripsAt (pr : Profile) (before after : Nat) : Bool :=
  decide (before < pr.tripGrace) && after == pr.tripGrace

/-- A load trip: the TRIP record, then the phase unit's change to SAFE (R51). -/
def loadTrip (s : State) : State :=
  enterSafe .loadTrip (logAppend (.trip s.load.peakZone s.load.peak) s)

/-- The ring's publication of a step reaches the load unit (R46 to R55). -/
def loadStep (pr : Profile) (s : State) : State :=
  let l := loadsOf pr s.ring s.load.flow s.load
  let n := tripCountAfter pr l
  let s1 := setFloorDuty (evalLoadConditions (s.setLoad { l with tripCount := n }))
  if tripsAt pr s.load.tripCount n then loadTrip s1 else s1

/-- An accepted ZONE_REPORT reaches the load unit (R44, R48, R55). -/
def loadReport (pr : Profile) (flow : Nat) (s : State) : State :=
  setFloorDuty (evalLoadConditions (s.setLoad (loadsOf pr s.ring flow s.load)))

/-- The load unit with loads, counter and demand at 0 (R60); the floor duty is set later. -/
def clearLoads (pr : Option Profile) (l : Load) : Load :=
  { l with
    loads :=
      match pr with
      | some x => List.replicate x.dryers.length 0
      | none => []
    peak := 0
    peakZone := 0
    tripCount := 0
    fReq := 0
    baseDuty := 0 }

end Sys2Proof.Machine
end

