-- ==== Sys2Proof/Machine/ArbiterUnit.lean ====
section
/-! DEFINITION. The change arbiter: clamping and admission (R127 to R132), headroom (R136, R137),
the pass and the grant (R138, R139), settling (R140 to R144), cancelling (R128, R133), owner loss
(R145). -/
namespace Sys2Proof.Machine

/-! ### Values and records -/

/-- The record a change moves, as it stands (R125). -/
def recordOf (s : State) : ChangeKey → Int
  | .speed => s.line.speedGrant
  | .exhaust => s.line.exhaust
  | .zone z => s.setpoint z
  | .chill c => s.setpoint c

/-- The entry of zone `z`, an empty one where the map has none. -/
def Profile.zoneOr (pr : Profile) (z : Nat) : ZoneItems := (pr.usedZone z).getD defaultNoneZone

/-- Heat cap of DRYER zone `z` as the envelope unit holds it. -/
def State.cap (s : State) (z : Nat) : Int := s.env.heatCaps.getD z 0

/-- A setpoint clamped into its zone's SET_MIN to SET_MAX (R127). -/
def clampSetpoint (pr : Profile) (z : Nat) (v : Int) : Int :=
  clampInt (pr.zoneOr z).setMin (pr.zoneOr z).setMax v

/-- A ZONE value raised to SET_MIN, then lowered to min(SET_MAX, heat cap) (R129). -/
def clampZone (pr : Profile) (s : State) (z : Nat) (v : Int) : Int :=
  min (max v (pr.zoneOr z).setMin) (min (pr.zoneOr z).setMax (s.cap z))

/-- A value clamped into the range of R129 as it stands; in COLD and PURGE a ZONE value into the
fixed range of R127 (R136). -/
def admittedValue (pr : Profile) (s : State) (key : ChangeKey) (v : Int) : Int :=
  match key with
  | .speed => min v s.env.ceiling
  | .exhaust => v
  | .zone z => if s.line.phase.heated then clampZone pr s z v else clampSetpoint pr z v
  | .chill c => clampSetpoint pr c v

/-! ### Headroom (R136, R137) -/

/-- g of a SPEED change toward `v` (R136). -/
def speedStep (pr : Profile) (s : State) (v : Int) : Int :=
  min (min v ((s.line.speedGrant : Int) + pr.rampStep)) s.env.ceiling

/-- F_adm (R136). -/
def exhaustFloor (pr : Profile) (s : State) (v : Int) : Int :=
  let bare := max v (ceilDiv (s.load.flow * s.load.peak) pr.loadHold : Nat)
  match s.line.phase with
  | .ready => max bare pr.flowReady
  | .printing => max bare pr.flowReady
  | .draining => max bare pr.flowReady
  | .heating => bare
  | .unconfigured => bare
  | .cold => bare
  | .purge => bare
  | .webBreak => bare
  | .safe => bare

/-- Some DRYER zone released at the last step while no flow is reported (R136). -/
def blindRelease (s : State) : Bool :=
  s.load.flow == 0 && s.ring.release.any (fun r => decide (0 < r))

/-- g_c: the greatest value from the setpoint + 1 to `v` for which the chill trial passes (R137). -/
def chillStep (pr : Profile) (s : State) (c : Nat) (v : Int) : Option Int :=
  let sp := s.setpoint c
  let t := predictionTime pr s.motion
  let pass := fun k : Nat =>
    trialPasses pr (rollsOf pr (s.ring.inputs.set c (sp + k))) t s.env.tIn
  if v ≤ sp then none else (greatestFrom pass 1 ((v - sp).toNat - 1)).map (fun k => sp + k)

/-- `some g` where a change has headroom, `g` being the value a grant writes (R136, R137). In BREAK
and SAFE only a SPEED change is tested (log 11). -/
def headroom (pr : Profile) (s : State) (key : ChangeKey) (value : Int) : Option Int :=
  let v := admittedValue pr s key value
  match key with
  | .speed =>
    let g := speedStep pr s v
    if (s.line.speedGrant : Int) < g then some g else none
  | .exhaust =>
    if s.line.phase.heated then
      let f := exhaustFloor pr s v
      if f < s.line.exhaust ∧ blindRelease s = false then some f else none
    else if (s.line.phase = .cold ∨ s.line.phase = .purge) ∧ v ≠ s.line.exhaust then some v
    else none
  | .zone z =>
    if s.line.phase.heated then
      if s.setpoint z < v then (if s.load.peak < pr.loadHold then some v else none)
      else if v < s.setpoint z then some v
      else none
    else if (s.line.phase = .cold ∨ s.line.phase = .purge) ∧ v ≠ s.setpoint z then some v
    else none
  | .chill c =>
    if s.line.phase.heated then chillStep pr s c v
    else if (s.line.phase = .cold ∨ s.line.phase = .purge) ∧ v ≠ s.setpoint c then some v
    else none

/-! ### Writing a record (R98, R99, R127, R139) -/

/-- The phase unit with one of its granted records written. -/
def PhaseUnit.putRecord (l : PhaseUnit) (key : ChangeKey) (v : Int) : PhaseUnit :=
  match key with
  | .speed => { l with speedGrant := v.toNat }
  | .exhaust => { l with exhaust := v.toNat }
  | .zone z => { l with setpoints := l.setpoints.set z v }
  | .chill c => { l with setpoints := l.setpoints.set c v }

/-- A write of a record, made known to the envelope unit and, for a setpoint, to the ready test
(R86, R98, R99). -/
def writeRecord (key : ChangeKey) (v : Int) (s : State) : State :=
  let s1 := recompute (s.setLine (s.line.putRecord key v))
  match key with
  | .speed => s1
  | .exhaust => s1
  | .zone _ => evaluateReady s1
  | .chill _ => evaluateReady s1

/-! ### The pass and the grant (R138, R139) -/

/-- A pending entry with headroom: its place in the list and the value a grant writes. -/
structure Candidate where
  index : Nat
  entry : PendingEntry
  granted : Int
deriving DecidableEq, Repr

/-- The QUEUED entries with headroom, in list order, places counted from `i`. -/
def candidatesFrom (pr : Profile) (s : State) (i : Nat) : List PendingEntry → List Candidate
  | [] => []
  | e :: rest =>
    match e.status, headroom pr s e.key e.value with
    | .queued, some g =>
      { index := i, entry := e, granted := g } :: candidatesFrom pr s (i + 1) rest
    | .queued, none => candidatesFrom pr s (i + 1) rest
    | .held, _ => candidatesFrom pr s (i + 1) rest

/-- PRIORITY of the port that owns a change (R138). -/
def priorityOf (pr : Profile) (key : ChangeKey) : Nat := (pr.ports.get (keyOwner key)).priority

/-- The candidate of highest PRIORITY, the earliest admitted among equals (R138). -/
def bestCandidate (pr : Profile) : List Candidate → Option Candidate
  | [] => none
  | c :: rest =>
    match bestCandidate pr rest with
    | none => some c
    | some d => if priorityOf pr c.entry.key < priorityOf pr d.entry.key then some d else some c

/-- The list without its entry at `i`; for a SPEED entry the entries ahead of it are noted (R134). -/
def removeGranted (key : ChangeKey) (i : Nat) (l : List PendingEntry) : List PendingEntry :=
  if key = .speed then
    (l.take i).map (fun e => { e with ahead := true }) ++
      (l.drop (i + 1)).map (fun e => { e with ahead := false })
  else l.eraseIdx i

/-- A grant (R139). -/
def grantChange (pr : Profile) (c : Candidate) (s : State) : State :=
  let e := c.entry
  writeRecord e.key c.granted
    (s.setArb
      { s.arb with
        list := removeGranted e.key c.index s.arb.list
        inFlight :=
          some { key := e.key, value := e.value, arrival := e.arrival, granted := c.granted }
        settleCount := 0
        settleTimer := startMs pr.settleLimit })

/-- An arbitration pass: with nothing in flight, at most one grant (R138). -/
def arbiterPass (s : State) : State :=
  match s.prof.committed, s.arb.inFlight with
  | some pr, none =>
    match bestCandidate pr (candidatesFrom pr s 0 s.arb.list) with
    | some c => grantChange pr c s
    | none => s
  | some _, some _ => s
  | none, _ => s

/-! ### Settling (R140, R144) -/

/-- An event at which a change may be observed (R140). -/
inductive Observation where
  | advance | zoneReport | chillReport
deriving DecidableEq, Repr

/-- Whether `o` observes a change of this key, and if so whether it finds it in tolerance (R140). -/
def observes (pr : Profile) (s : State) (o : Observation) : ChangeKey → Option Bool
  | .speed =>
    if o = .advance then
      some (decide (absDiff s.motion.vMeas s.line.speedGrant ≤ pr.speedTol))
    else none
  | .exhaust =>
    if o = .zoneReport then some (decide (absDiff s.load.flow s.line.exhaust ≤ pr.flowTol))
    else none
  | .zone z =>
    if o = .zoneReport then
      some (decide (absDiff (s.ring.inputs.getD z 0) (s.setpoint z) ≤ (pr.zoneOr z).tol))
    else none
  | .chill c =>
    if o = .chillReport then
      some (decide (absDiff (s.ring.inputs.getD c 0) (s.setpoint c) ≤ (pr.zoneOr c).tol))
    else none

/-- A QUEUED entry of another port with priority at or above the LINE port's has headroom (R144). -/
def competes (pr : Profile) (s : State) : Bool :=
  s.arb.list.any (fun e =>
    e.status == .queued && keyOwner e.key != .line &&
      decide ((pr.ports.get .line).priority ≤ priorityOf pr e.key) &&
      (headroom pr s e.key e.value).isSome)

/-- The list with a SPEED remainder put back: directly after the last entry noted as ahead of it, at
the head where none is left (R134). -/
def insertRemainder (r : PendingEntry) : List PendingEntry → List PendingEntry
  | [] => [r]
  | e :: rest =>
    if (e :: rest).any (·.ahead) then e :: insertRemainder r rest else r :: e :: rest

/-- The change in flight yields: it returns to the list QUEUED (R144). -/
def yieldChange (pr : Profile) (c : InFlight) (s : State) : State :=
  let r : PendingEntry :=
    { key := c.key, value := c.value, arrival := c.arrival, status := .queued,
      timer := startMs pr.pendingLimit, ahead := false }
  s.setArb
    { s.arb with
      list := insertRemainder r s.arb.list
      inFlight := none
      settleCount := 0
      settleTimer := none }

/-- The next increment of a burst (R144). -/
def burst (pr : Profile) (c : InFlight) (g : Int) (s : State) : State :=
  writeRecord c.key g
    (s.setArb
      { s.arb with
        inFlight := some { c with granted := g }
        settleCount := 0
        settleTimer := startMs pr.settleLimit })

/-- A settled SPEED increment (R144). -/
def settleSpeed (pr : Profile) (c : InFlight) (s : State) : State :=
  let g := speedStep pr s c.value
  if c.value ≤ s.line.speedGrant then arbiterPass (endInFlight .settled s)
  else if competes pr s = false ∧ (s.line.speedGrant : Int) < g then burst pr c g s
  else if Config.pendingCapacity ≤ s.arb.list.length then arbiterPass (endInFlight .settled s)
  else arbiterPass (yieldChange pr c s)

/-- The change in flight has settled (R140). -/
def settleChange (pr : Profile) (c : InFlight) (s : State) : State :=
  if c.key = .speed then settleSpeed pr c s else arbiterPass (endInFlight .settled s)

/-- Observation `o` reaches the arbiter (R140). -/
def settleObserve (o : Observation) (s : State) : State :=
  match s.prof.committed, s.arb.inFlight with
  | some pr, some c =>
    match observes pr s o c.key with
    | some true =>
      let s1 := s.setArb { s.arb with settleCount := min 255 (s.arb.settleCount + 1) }
      if pr.settleCount ≤ s.arb.settleCount + 1 then settleChange pr c s1 else s1
    | some false => s.setArb { s.arb with settleCount := 0 }
    | none => s
  | some _, none => s
  | none, _ => s

/-! ### Ending standing changes -/

/-- The change in flight has this key. -/
def flies (s : State) (key : ChangeKey) : Bool :=
  match s.arb.inFlight with
  | some c => c.key == key
  | none => false

/-- The change in flight ends if it has this key. -/
def endInFlightOf (key : ChangeKey) (reason : EndReason) (s : State) : State :=
  if flies s key then endInFlight reason s else s

/-- The pending entry of this key ends, if there is one. -/
def endPendingOf (key : ChangeKey) (reason : EndReason) (s : State) : State :=
  endPending (fun e => e.key == key) reason s

/-- Some pending entry has this key. -/
def waits (s : State) (key : ChangeKey) : Bool := s.arb.list.any (fun e => e.key == key)

/-! ### Changes taken at once (R127, R128) -/

/-- A change taken at once: standing changes to the same quantity end CANCELLED, the record is
written, a pass follows (R127, R128; order: log 15). -/
def takeAtOnce (key : ChangeKey) (v : Int) (s : State) : State :=
  arbiterPass (writeRecord key v (endPendingOf key .cancelled (endInFlightOf key .cancelled s)))

/-! ### Admission (R129 to R132) -/

/-- Status of an entry of this key and admitted value (R130). -/
def statusFor (s : State) (key : ChangeKey) (v : Int) : EntryStatus :=
  if s.line.phase = .draining ∧ belowSetpoint s key v then .held else .queued

/-- A waiting timer for an entry of status `st` (R130, R135). -/
def timerFor (pr : Profile) (st : EntryStatus) : Timer :=
  match st with
  | .queued => startMs pr.pendingLimit
  | .held => none

/-- An entry superseded by a new admitted value (R131). -/
def supersedeEntry (pr : Profile) (s : State) (key : ChangeKey) (v : Int) (e : PendingEntry) :
    PendingEntry :=
  if e.key = key then
    let st := statusFor s key v
    { e with
      value := v
      status := st
      timer := if e.status = .queued ∧ st = .queued then e.timer else timerFor pr st }
  else e

/-- The new entry joins the end of the list (R130). -/
def joinList (pr : Profile) (key : ChangeKey) (v : Int) (s : State) : State :=
  let st := statusFor s key v
  s.setArb
    { s.arb with
      list := s.arb.list ++
        [{ key := key, value := v, arrival := s.arb.arrival, status := st,
           timer := timerFor pr st, ahead := false }]
      arrival := s.arb.arrival + 1 }

/-- The entry of this key in the list. -/
def State.entryOf (s : State) (key : ChangeKey) : Option PendingEntry :=
  s.arb.list.find? (fun e => e.key == key)

/-- How the admission of a change came out: the state, and what the reply says. -/
structure Admission where
  state : State
  result : Result
  arrival : Word16
  disposition : Disposition

/-- The admission's reply once its pass has run: the entry still waits, or it was granted (R129). -/
def admissionAfter (key : ChangeKey) (s : State) (arrival : Word16) (st : EntryStatus) : Admission :=
  { state := s
    result := if st = .held then .held else .queued
    arrival := arrival
    disposition :=
      match s.entryOf key with
      | some e => if e.status = .held then .held else .waiting
      | none => .granted }

/-- An admitted change goes to the SPEED change in flight (R132), supersedes an entry (R131), or
joins the list (R130); none where the list is full. The arrival number of the reply for a change in flight
is that change's own (log 30, DESIGN CHOICE). -/
def placeChange (pr : Profile) (key : ChangeKey) (v : Int) (s : State) : Option Admission :=
  match s.arb.inFlight with
  | some c =>
    if key = .speed ∧ c.key = .speed then
      some
        { state := s.setArb { s.arb with inFlight := some { c with value := v } }
          result := .queued
          arrival := c.arrival
          disposition := .inFlight }
    else placeInList
  | none => placeInList
where
  /-- The change supersedes its port's entry of the same key, or joins the list. -/
  placeInList : Option Admission :=
    let st := statusFor s key v
    match s.entryOf key with
    | some e =>
      let s1 := arbiterPass
        (s.setArb { s.arb with list := s.arb.list.map (supersedeEntry pr s key v) })
      some (admissionAfter key s1 e.arrival st)
    | none =>
      if Config.pendingCapacity ≤ s.arb.list.length then none
      else some (admissionAfter key (arbiterPass (joinList pr key v s)) s.arb.arrival st)

/-! ### Timers, cancel, loss -/

/-- The settle timer expires (R141). -/
def settleTimeout (s : State) : State := arbiterPass (endInFlight .timedOut s)

/-- The waiting timer of the QUEUED entry of this key expires (R135). -/
def waitingTimeout (key : ChangeKey) (s : State) : State :=
  endPending (fun e => e.key == key && e.status == .queued) .noHeadroom s

/-- Number of changes of this key standing for its owner. -/
def standingCount (s : State) (key : ChangeKey) : Nat :=
  (if waits s key then 1 else 0) + (if flies s key then 1 else 0)

/-- CHANGE_CANCEL of a key the port owns (R133): the pending entry, then the change in flight. -/
def cancelChange (key : ChangeKey) (s : State) : State :=
  let s1 := endPendingOf key .cancelled s
  if flies s1 key then arbiterPass (endInFlight .cancelled s1) else s1

/-- The owner's loss: its entries in list order, then its change in flight (R145). The pass is left to
the port loss, which recomputes the envelope (log 9). -/
def ownerLoss (p : Port) (s : State) : State :=
  let s1 := endPending (fun e => keyOwner e.key == p) .portLost s
  match s1.arb.inFlight with
  | some c => if keyOwner c.key = p then endInFlight .portLost s1 else s1
  | none => s1

end Sys2Proof.Machine
end

