-- ==== Sys2Proof/Machine/BreakOps.lean ====
section
/-! DEFINITION. The break unit: internal signals (R110), arrivals (R112, R113), the break response
(R114, R115), further arrivals in BREAK (R117, R118), latches (R120). -/
namespace Sys2Proof.Machine

/-- The input level a POLARITY names (R110). -/
def activeLevel : Polarity → Level
  | .activeHigh => .high
  | .activeLow => .low

/-- The internal signal: active while the input level is the one the POLARITY names; not formed, so
not active, with no profile (R110). -/
def DetectorEntry.signal (e : DetectorEntry) : Bool :=
  match e.cfg with
  | some c => e.level == activeLevel c.polarity
  | none => false

/-- A detector's POSITION, 0 where it has none. -/
def DetectorEntry.place (e : DetectorEntry) : Nat :=
  match e.cfg with
  | some c => c.position
  | none => 0

/-- The entry of detector `d`. -/
def State.det (s : State) (d : Detector) : DetectorEntry := s.brk.dets.get d

/-- `s` with detector `d`'s entry replaced. -/
def State.putDet (s : State) (d : Detector) (e : DetectorEntry) : State :=
  s.setBrk { s.brk with dets := s.brk.dets.set d e }

/-- Some detector holds a pending latch (R85, R104). -/
def State.anyLatch (s : State) : Bool := s.brk.dets.any (·.latch)

/-- Every armed detector's internal signal is inactive (R121, R122). -/
def State.signalsClear (s : State) : Bool := s.brk.dets.all (fun e => !(e.armed && e.signal))

/-- Clear every pending latch. -/
def clearLatches (s : State) : State :=
  s.setBrk
    { s.brk with dets := PerDetector.of (fun d => { s.brk.dets.get d with latch := false }) }

/-- The void operation at `p`, after which the envelope unit recomputes (R23, R70). -/
def ringVoid (p : Nat) (s : State) : State :=
  recompute (s.setRing { s.ring with records := voidFrom p s.ring.records })

/-- The strand operation at `p` (R24). -/
def ringStrand (pr : Profile) (p : Nat) (s : State) : State :=
  s.setRing { s.ring with records := strandTo pr p s.ring.records }

/-- The restore operation, after which the envelope unit recomputes (R25, R70). -/
def ringRestore (pr : Profile) (s : State) : State :=
  recompute (s.setRing { s.ring with records := s.ring.records.map (restoreRecord pr) })

/-- Arm the post-break freeze; it is armed only from OPEN (R157). -/
def armFreeze (pr : Profile) (s : State) : State :=
  match s.log.freeze with
  | .opened => s.setLog { s.log with freeze := .armed pr.postBreak }
  | .armed _ => s
  | .frozen => s

/-- The three things every arrival does (R113): the BREAK record, the BREAK notice, the latch. -/
def recordArrival (d : Detector) (voided : Nat) (upstream : Bool) (s : State) : State :=
  let s1 := raiseAll .webBreak
    (logAppend (.webBreak d (s.det d).place voided upstream) s)
  s1.putDet d { s1.det d with latch := true }

/-- The break response to an arrival at `d` (R114). -/
def breakResponse (pr : Profile) (d : Detector) (s : State) : State :=
  let p := (s.det d).place
  let s1 := phaseWrite .webBreak .webBreak (s.setBrk { s.brk with pb := some p })
  let n := voidCount p s1.ring.records
  let s2 := ringStrand pr p (ringVoid p s1)
  recordArrival d n false (armFreeze pr (abortChanges s2))

/-- An upstream arrival in BREAK (R117). -/
def upstreamArrival (pr : Profile) (d : Detector) (s : State) : State :=
  let p := (s.det d).place
  let n := voidCount p s.ring.records
  let s1 := ringStrand pr p (ringVoid p (s.setBrk { s.brk with pb := some p }))
  recordArrival d n true s1

/-- The arrival lies upstream of the break being handled (R117). -/
def State.upstreamOf (s : State) (d : Detector) : Bool :=
  match s.brk.pb with
  | some p => decide ((s.det d).place < p)
  | none => false

/-- An arrival at `d`, in the phase it finds (R113 to R119). -/
def arrival (d : Detector) (s : State) : State :=
  match s.prof.committed with
  | none => s
  | some pr =>
    if s.line.phase.heated then breakResponse pr d s
    else if s.line.phase = .webBreak ∧ s.upstreamOf d then upstreamArrival pr d s
    else recordArrival d 0 false s

/-- A detector's entry replaced, and the arrival it is when a detector armed before and after goes
from inactive to active (R110, R112). -/
def changeDetector (d : Detector) (e : DetectorEntry) (s : State) : State :=
  let before := s.det d
  let s1 := s.putDet d e
  if before.armed && e.armed && !before.signal && e.signal then arrival d s1 else s1

end Sys2Proof.Machine
end

