-- ==== Sys2Proof/Machine/StepOps.lean ====
section
/-! DEFINITION. Steps as the blocks take them: pulses and stillness (R32 to R38), the ADVANCE and the
DWELL carried through ring, load unit, envelope unit, phase unit and arbiter (R35, R39, R47, R70,
R90 to R97, R140; order: log 9, log 10). -/
namespace Sys2Proof.Machine

/-! ### Stillness -/

/-- Re-evaluate the STALL condition: STILL with a profile committed (R37). -/
def evalStall (s : State) : State :=
  setConditionAll .stall (s.motion.state == .still && s.prof.committed.isSome) s

/-- A pulse makes a STILL web MOVING (R38, R94), or restarts the stall timer (R32, R33). -/
def pulseMotion (pr : Profile) (s : State) : State :=
  match s.motion.state with
  | .moving => s.setMotion { s.motion with stallTimer := startMs pr.stallLimit }
  | .still =>
    let s1 := s.setMotion
      { s.motion with
        state := .moving
        dwellTimer := none
        stallTimer := startMs pr.stallLimit }
    let s2 := evalStall (s1.setLine { s1.line with stallGrace := none })
    arbiterPass (recompute s2)

/-- The web becomes STILL (R37, R94, R96). -/
def becomeStill (s : State) : State :=
  match s.prof.committed with
  | none => s.setMotion { s.motion with stallTimer := none }
  | some pr =>
    let s1 := s.setMotion
      { s.motion with
        state := .still
        vMeas := 0
        last := none
        stallTimer := none
        dwellTimer := startMs pr.dwellInterval }
    let s2 := evalStall
      (s1.setLine
        { s1.line with
          stallGrace :=
            if s1.line.phase.heated then startMs pr.stallGrace else s1.line.stallGrace
          excess := none })
    arbiterPass (recompute s2)

/-! ### The phase unit at an ADVANCE (R90 to R93, R96) -/

/-- The step was a counted ADVANCE: the ring entered a PRINTED record (R90). -/
def State.counted (s : State) : Bool :=
  match s.ring.lastEntry with
  | some i => i.kind == .printed
  | none => false

/-- The step was taken by the ring in DRAINING (R92). -/
def State.drained (s : State) : Bool :=
  match s.ring.lastEntry with
  | some i => i.phase == .draining
  | none => false

/-- The fill count at an ADVANCE (R90). -/
def fillStep (s : State) : State :=
  if s.counted ∧ 0 < s.line.fill then
    let s1 := s.setLine { s.line with fill := s.line.fill - 1 }
    if s.line.fill = 1 then recompute (logAppend (.filled s.motion.vMeas) s1) else s1
  else s

/-- A run ends (R91). -/
def runEnd (r : RunCount) (s : State) : State :=
  if r.repeats then
    let mark := min 65535 (s.line.mark + 1)
    let s1 := s.setLine { s.line with run := some { r with current := r.base }, mark := mark }
    raiseAt .runMark .line (logAppend (.runMark mark) s1)
  else
    enterDraining .runEnd
      (raiseAt .runMark .line (s.setLine { s.line with run := some { r with current := 0 } }))

/-- The run count at an ADVANCE (R91). -/
def runStep (s : State) : State :=
  match s.line.run with
  | none => s
  | some r =>
    if s.counted then
      if r.current ≤ 1 then runEnd r s
      else s.setLine { s.line with run := some { r with current := r.current - 1 } }
    else s

/-- The drain count at an ADVANCE (R92, R93). -/
def drainStep (s : State) : State :=
  if s.line.phase = .draining ∧ s.drained ∧ 0 < s.line.drain then
    let s1 := s.setLine { s.line with drain := s.line.drain - 1 }
    if s.line.drain = 1 then endDrain s1 else s1
  else s

/-- The excess-speed test against the ceiling recomputed for the step (R96). -/
def excessTest (pr : Profile) (ceiling : Nat) (s : State) : State :=
  if s.line.phase.heated then
    if min ceiling s.line.speedGrant + pr.speedTol < s.motion.vMeas then
      match s.line.excess with
      | some _ => s
      | none => s.setLine { s.line with excess := startMs pr.excessGrace }
    else s.setLine { s.line with excess := none }
  else s

/-- The phase unit takes an ADVANCE; `ceiling` is the one recomputed for the step (R71, R96). Where the fill
count and the run count reach 0 together, the rules order neither: the fill comes first here, and so FILLED
before the RUN_MARK record or RUN_END's PHASE record (log 29, DESIGN CHOICE). -/
def phaseAdvance (pr : Profile) (ceiling : Nat) (s : State) : State :=
  excessTest pr ceiling (drainStep (runStep (fillStep s)))

/-! ### Steps -/

/-- The blocks after the ring at an ADVANCE, in the order of 95_what_each_step_holds (log 9). -/
def afterAdvance (pr : Profile) (s : State) : State :=
  let s1 := recompute (setIdle false (loadStep pr s))
  let s2 := phaseAdvance pr s1.env.ceiling (arbiterPass s1)
  settleObserve .advance (arbiterPass s2)

/-- Step time of an ADVANCE (R35). -/
def stepTime (pr : Profile) (m : Motion) : Nat :=
  match m.last with
  | some r => if r.elapsed = 0 then 1 else r.elapsed
  | none => pr.stallLimit * 1000

/-- v_meas of a step time (R36). -/
def measuredSpeed (pr : Profile) (t : Nat) : Nat := min 65535 (pr.segLength * 600000 / t)

/-- An ADVANCE: the motion unit's timing (R34 to R36), then the step (R15). -/
def issueAdvance (pr : Profile) (s : State) : State :=
  let t := stepTime pr s.motion
  let s1 := s.setMotion
    { s.motion with
      p := 0
      tStep := t
      vMeas := measuredSpeed pr t
      last := some { instant := s.time.us, elapsed := 0 } }
  afterAdvance pr (ringAdvance pr t s1)

/-- A forward pulse with a profile committed (R32, R38). -/
def forward (pr : Profile) (s : State) : State :=
  let s1 := pulseMotion pr s
  if 0 < s1.motion.d then s1.setMotion { s1.motion with d := s1.motion.d - 1 }
  else if pr.pulsesPerSeg ≤ s1.motion.p + 1 then issueAdvance pr s1
  else s1.setMotion { s1.motion with p := s1.motion.p + 1 }

/-- A reverse pulse with a profile committed (R33, R38). -/
def backward (pr : Profile) (s : State) : State :=
  let s1 := pulseMotion pr s
  if 0 < s1.motion.p then s1.setMotion { s1.motion with p := s1.motion.p - 1 }
  else s1.setMotion { s1.motion with d := min 65535 (s1.motion.d + 1) }

/-- A DWELL step, carried through ring, load unit and envelope unit (R39, R20). -/
def issueDwell (pr : Profile) (s : State) : State :=
  let s1 := s.setMotion { s.motion with dwellTimer := startMs pr.dwellInterval }
  let s2 := s1.setRing (dwellRing pr (pr.dwellInterval * 1000) s1.ring)
  arbiterPass (recompute (loadStep pr s2))

/-! ### The encoder reference (R30) -/

/-- The pair that follows `e` in the forward cycle. -/
def encForward (e : EncPair) : EncPair :=
  match e.a, e.b with
  | .low, .low => { a := .high, b := .low }
  | .high, .low => { a := .high, b := .high }
  | .high, .high => { a := .low, b := .high }
  | .low, .high => { a := .low, b := .low }

/-- The pair that follows `e` in the reverse cycle. -/
def encReverse (e : EncPair) : EncPair := encForward (encForward (encForward e))

/-- The pair with both lines changed. -/
def encOpposite (e : EncPair) : EncPair := encForward (encForward e)

end Sys2Proof.Machine
end

