-- ==== Sys2Proof/Machine/ProfileOps.lean ====
section
/-! DEFINITION. The profile unit: abandoning (R192), the effects of a commit (R195) and of a RESTART
(R196), each carried to the blocks in the order its rule gives. -/
namespace Sys2Proof.Machine

/-- The table in force: the committed one, or the defaults (R191). -/
def ProfileUnit.inForce (u : ProfileUnit) : Profile :=
  match u.committed with
  | some pr => pr
  | none => .default

/-- PROFILE_ABANDON by the holder, and the holder's loss (R191, R192). -/
def abandonProfile (s : State) : State :=
  s.setProf
    { s.prof with
      staged := s.prof.inForce
      holder := none
      code := if s.prof.committed.isSome then .valid else .none }

/-! ### Commit (R195) -/

/-- The staged table becomes the committed table (R195). -/
def installProfile (s : State) : State :=
  s.setProf
    { s.prof with
      committed := some s.prof.staged
      holder := none
      code := .valid
      errorItem := none }

/-- Part 2: the ring takes the map and is rebuilt, its inputs at AMBIENT (R10). -/
def commitRing (pr : Profile) (s : State) : State :=
  s.setRing
    (rebuildRing pr { s.ring with inputs := List.replicate pr.used.length pr.ambient })

/-- Part 3: the motion unit, and the STALL condition a commit may start (R41, R37). -/
def commitMotion (pr : Profile) (s : State) : State :=
  let m := s.motion
  s.setMotion
    { m with
      p := 0
      d := 0
      last := none
      tStep := 0
      vMeas := 0
      stallTimer := if m.state = .moving then startMs pr.stallLimit else none
      dwellTimer := if m.state = .still then startMs pr.dwellInterval else none }

/-- Part 4: the load unit (R60). -/
def commitLoad (pr : Profile) (s : State) : State :=
  s.setLoad { clearLoads (some pr) s.load with flow := 0 }

/-- Part 5: the phase unit's records and counts (R84). -/
def commitLine (pr : Profile) (s : State) : State :=
  s.setLine
    { s.line with
      setpoints := pr.used.map (·.setMin)
      exhaust := pr.flowFull
      speedGrant := pr.crawlLimit
      fill := 0
      drain := 0
      run := none
      mark := 0
      ready := .fails
      stallGrace := none
      excess := none
      purgeTimer := none
      purgeVolume := 0 }

/-- Part 5: UNCONFIGURED to COLD, and on to SAFE where ESTOP is active (R84). -/
def commitPhase (s : State) : State :=
  if s.line.phase = .unconfigured then
    let s1 := phaseWrite .cold .commit s
    if s1.line.estopActive then enterSafe .estop s1 else s1
  else s

/-- Part 6: the detector entries from the profile; no arrival (R109). -/
def commitDetectors (pr : Profile) (s : State) : State :=
  s.setBrk
    { dets := PerDetector.of (fun d =>
        let i := pr.detectors.get d
        { s.brk.dets.get d with
          cfg := some { position := i.position, polarity := i.polarity }
          armed := i.armed
          latch := false })
      pb := none }

/-- The arbiter as a commit and a RESTART leave it after the abort (R148). -/
def resetArrivals (s : State) : State := s.setArb { s.arb with arrival := 0 }

/-- Part 9: floor duty, envelope, level conditions (R195). -/
def settleConditions (s : State) : State :=
  evalStall (evalLoadConditions (recompute (setIdle false (setFloorDuty s))))

/-- Port `p` takes its new WATERMARK (R195). -/
def takeWatermark (pr : Profile) (p : Port) (s : State) : State :=
  s.modPort p (fun q => { q with watermark := (pr.ports.get p).watermark })

/-- Part 7: the ports take the new WATERMARKs, and LOG_WATERMARK is re-evaluated (R156). -/
def commitWatermarks (pr : Profile) (s : State) : State :=
  evalWatermarks
    (takeWatermark pr .chill (takeWatermark pr .dryer (takeWatermark pr .line s)))

/-- Part 8: the PROFILE record (R161). -/
def commitRecord (p : Port) (pr : Profile) (s : State) : State :=
  logAppend (.profile p pr.ringLength s.line.phase) s

/-- The PROFILE record, appended from `s` to give `t`, brings port `q`'s unread count to the old WATERMARK
and not to the new one: LOG_WATERMARK begins there under the old one alone. -/
def reachesOldAlone (s t : State) (q : Port) : Bool :=
  decide (s.log.freeze ≠ .frozen) && !(Notice.logWatermark.inSet (s.port q).holding) &&
    decide (s.watermark q ≤ t.log.unread.get q) && decide (t.log.unread.get q < t.watermark q)

/-- The notice the old WATERMARK of port `q` gives the PROFILE record, where it applies (log 31). -/
def raiseUnderOld (s t : State) (q : Port) (u : State) : State :=
  if reachesOldAlone s t q && Config.profileUnderOldWatermarks then raiseAt .logWatermark q u else u

/-- Parts 7 and 8, after the PHASE records of part 5, which the old WATERMARKs measure. R195 takes the
WATERMARKs before the PROFILE record, R161 applies them after it: the orders differ in one notice, left to
the free value (log 31). -/
def commitPorts (p : Port) (pr : Profile) (s : State) : State :=
  let t := commitRecord p pr (commitWatermarks pr s)
  raiseUnderOld s t .chill (raiseUnderOld s t .dryer (raiseUnderOld s t .line t))

/-- A successful commit by port `p` (R195). -/
def commitProfile (p : Port) (s : State) : State :=
  let pr := s.prof.staged
  let s1 := resetArrivals (abortChanges s)
  let s2 := commitLoad pr (commitMotion pr (commitRing pr (installProfile s1)))
  let s3 := commitDetectors pr (commitPhase (commitLine pr s2))
  settleConditions (commitPorts p pr s3)

/-! ### RESTART (R196) -/

/-- Part 2: the ring is rebuilt where a profile is committed, its inputs kept (R10). -/
def restartRing (s : State) : State :=
  match s.prof.committed with
  | some pr => s.setRing (rebuildRing pr s.ring)
  | none =>
    s.setRing
      { s.ring with
        inputs := []
        records := []
        entryCounter := 0
        release := []
        lastKind := .none
        lastT := 0
        lastEntry := none }

/-- Part 3: loads, counter, demand and purge accumulator at 0, F kept, floor duty set (R60). -/
def restartLoad (s : State) : State :=
  let s1 := s.setLoad (clearLoads s.prof.committed s.load)
  setFloorDuty (s1.setLine { s1.line with purgeVolume := 0, purgeTimer := none })

/-- Part 4: the phase unit (R107). -/
def restartLine (s : State) : State :=
  s.setLine
    { s.line with
      fill := 0
      drain := 0
      run := none
      mark := 0
      ready := .fails
      stallGrace := none
      excess := none
      speedGrant :=
        match s.prof.committed with
        | some pr => pr.crawlLimit
        | none => 0 }

/-- Part 7: the log is emptied and takes the RESTART record (R162). -/
def restartLog (p : Port) (s : State) : State :=
  let held := s.log.records.length
  let drops := s.log.drops
  let zero : PerPort Nat := { line := 0, dryer := 0, chill := 0 }
  logAppend (.restart p held drops)
    (evalWatermarks
      (s.setLog { records := [], unread := zero, skip := zero, freeze := .opened, drops := 0 }))

/-- Part 8: every pending set emptied, the level kinds that hold put back (R182). -/
def restartPorts (s : State) : State := s.modPorts PortState.emptyPending

/-- An accepted RESTART by port `p` (R196). -/
def restartAll (p : Port) (s : State) : State :=
  let s1 := restartLoad (restartRing (resetArrivals (abortChanges s)))
  let s2 := clearLatches (restartLine s1)
  let s3 := evalLoadConditions (recompute (setIdle false s2))
  restartPorts (restartLog p s3)

end Sys2Proof.Machine
end

