-- ==== Sys2Proof/Machine/PortOps.lean ====
section
/-! DEFINITION. The port unit: liveness, loss and return (R172 to R175), the receiver (R165, R166),
the tests of a valid frame (R167, R170). -/
namespace Sys2Proof.Machine

/-! ### Loss and return (R173, R174) -/

/-- The phase part of port `p`'s loss action (R105). -/
def lossPhase (p : Port) (s : State) : State :=
  match (s.port p).action with
  | .note => s
  | .limit =>
    if p = .line ∧ s.line.phase = .printing then enterDraining .lineLost s else s
  | .safe => enterSafe .portLoss s

/-- Port `p` becomes LOST (R173), its six parts in order; the passes come last (log 9). -/
def portLoss (p : Port) (s : State) : State :=
  let s1 := s.modPort p (fun q => { q with live := .lost, window := none })
  let s2 := raiseOthers .portLost p (logAppend (.port p false (s1.port p).action) s1)
  let s3 := ownerLoss p s2
  let s4 := if s3.prof.holder = some p then abandonProfile s3 else s3
  arbiterPass (recompute (setFloorDuty (lossPhase p s4)))

/-- A valid frame acts on the port's liveness before its request is tested (R172, R174). -/
def frameLiveness (p : Port) (s : State) : State :=
  let heard := s.modPort p (fun q => { q with live := .active, window := startMs (s.windowMs p) })
  match (s.port p).live with
  | .quiet => heard
  | .active => heard
  | .lost =>
    arbiterPass (recompute (setFloorDuty
      (logAppend (.port p true (s.port p).action) heard)))

/-! ### Tests of a valid frame (R167) -/

/-- The ports that may send a request: any, or one (R170). -/
def requestPort : Request → Option Port
  | .ping => none
  | .statusRead => none
  | .zoneRead => none
  | .ringRead => none
  | .logRead => none
  | .logRelease => none
  | .noticeRead => none
  | .noticeMap => none
  | .lossAction => none
  | .changeCancel => none
  | .profileOpen => none
  | .profileWrite => none
  | .profileRead => none
  | .profileCommit => none
  | .profileAbandon => none
  | .restart => none
  | .speedRamp => some .line
  | .impressionOn => some .line
  | .impressionOff => some .line
  | .solventCharge => some .line
  | .jobTag => some .line
  | .detectorSet => some .line
  | .breakClear => some .line
  | .safeClear => some .line
  | .zoneReport => some .dryer
  | .zoneSetpoint => some .dryer
  | .exhaustTarget => some .dryer
  | .purgeStart => some .dryer
  | .coolDown => some .dryer
  | .chillReport => some .chill
  | .chillSetpoint => some .chill

/-- The catalogue accepts the request on this port (R170). -/
def acceptedOn (r : Request) (p : Port) : Bool :=
  match requestPort r with
  | none => true
  | some q => p == q

/-- The payload has the length R185 and R197 give the request; a report's is a whole number of
values, a ZONE_REPORT's after its F (R167). -/
def lengthFits (r : Request) (n : Nat) : Bool :=
  match r with
  | .ping => n == 0
  | .statusRead => n == 0
  | .zoneRead => n == 1
  | .ringRead => n == 2
  | .logRead => n == 1
  | .logRelease => n == 0
  | .noticeRead => n == 0
  | .noticeMap => n == 3
  | .lossAction => n == 1
  | .changeCancel => n == 2
  | .profileOpen => n == 0
  | .profileWrite => n == 5
  | .profileRead => n == 2
  | .profileCommit => n == 0
  | .profileAbandon => n == 0
  | .restart => n == 0
  | .speedRamp => n == 4
  | .impressionOn => n == 4
  | .impressionOff => n == 0
  | .solventCharge => n == 2
  | .jobTag => n == 3
  | .detectorSet => n == 3
  | .breakClear => n == 0
  | .safeClear => n == 0
  | .zoneReport => decide (2 ≤ n) && n % 2 == 0
  | .zoneSetpoint => n == 3
  | .exhaustTarget => n == 2
  | .purgeStart => n == 0
  | .coolDown => n == 0
  | .chillReport => n % 2 == 0
  | .chillSetpoint => n == 3

/-- What a request's owner makes of it: the state after its effects, and the reply's payload, built as
one snapshot of that state (R168). -/
structure Answer where
  state : State
  payload : List Byte

/-- A request that is answered with its result code alone. -/
def Answer.code (s : State) (r : Result) : Answer := { state := s, payload := codeOnly r }

/-- How the block that owns a request takes it from port `p` with a payload. -/
abbrev Handler := Port → List Byte → State → Answer

/-- The receiver is back in HUNT with its gap timer stopped (R165). -/
def receiverIdle (p : Port) (s : State) : State :=
  s.modPort p (fun q => { q with rx := .hunt, gap := none })

/-- A valid frame is taken: the receiver returns to HUNT, the liveness acts (R165, R167). -/
def frameTaken (p : Port) (s : State) : State := frameLiveness p (receiverIdle p s)

/-- A valid frame that carries request `r` (R167, R168). -/
def takeRequest (r : Request) (h : Handler) (p : Port) (pl : List Byte) (s : State) : State :=
  let s1 := frameTaken p s
  if acceptedOn r p then
    if lengthFits r pl.length then
      let a := h p pl s1
      answer p r.code a.payload a.state
    else answer p r.code (codeOnly .refusedRange) s1
  else answer p r.code (codeOnly .refusedPort) s1

/-- A valid frame whose kind names no request (R167). -/
def takeUnknown (p : Port) (kind : Byte) (s : State) : State :=
  answer p kind (codeOnly .unknownKind) (frameTaken p s)

/-! ### Failed frames (R166) -/

/-- A frame fails: the receiver returns to HUNT, and where the kind and the length had been received
the port answers BAD_FRAME (R166). -/
def failFrame (p : Port) (kind : Option Byte) (s : State) : State :=
  match kind with
  | some k => answer p k (codeOnly .badFrame) (receiverIdle p s)
  | none => receiverIdle p s

/-- The kind received, once the length has been received too (R166). -/
def Receiver.answerable : Receiver → Option Byte
  | .hunt => none
  | .kind _ => none
  | .length _ _ => none
  | .payload k _ _ _ => some k
  | .check k _ _ _ => some k

/-- The receiver moves on inside a frame, its gap timer restarted (R165). -/
def receiverTo (rx : Receiver) (p : Port) (s : State) : State :=
  s.modPort p (fun q => { q with rx := rx, gap := some Config.gapLength })

end Sys2Proof.Machine
end

