-- ==== Sys2Proof/Machine/StatusPayload.lean ====
section
/-! DEFINITION. The 87 bytes of the STATUS_READ reply (R189), gathered from the blocks (R171). -/
namespace Sys2Proof.Machine

/-- Bytes 0 to 19: result, phase, flags, time, motion, envelope (R43, R80, R108, R189). -/
def statusHead (s : State) : List Byte :=
  [Result.ok.code] ++ u8 s.line.phase.code ++ u8 s.line.cause.code ++
    flagByte
      [s.line.ready == .holds, s.line.heatInhibit, s.line.permit, s.line.estopActive,
       s.motion.state == .moving, s.env.underchill,
       (match s.line.run with
        | some r => r.repeats
        | none => false),
       s.prof.committed.isSome] ++
    u24 s.time.ms.toNat ++ u32 s.motion.tStep ++ u16 s.motion.vMeas ++ u16 s.env.ceiling ++
    u8 s.env.limiter.code ++ optTemp s.env.tIn ++ optTemp s.env.predicted

/-- Bytes 20 to 45: grants, load unit, purge volume, counts (R61, R108, R189). -/
def statusGrants (s : State) : List Byte :=
  u16 s.line.speedGrant ++ u16 s.line.exhaust ++ u16 s.load.flow ++ u16 s.load.fReq ++
    u16 s.load.peak ++ u8 s.load.peakZone ++ u8 s.load.tripCount ++ u16 s.load.baseDuty ++
    u16 s.load.floorDuty ++ u24 s.line.purgeVolume ++ u8 s.line.fill ++ u8 s.line.drain ++
    u24
      (match s.line.run with
       | some r => r.current
       | none => 0) ++
    u16 s.line.mark

/-- The two bytes of a detector (R124, R189). -/
def detectorBytes (e : DetectorEntry) : List Byte :=
  optPlace (e.cfg.map (·.position)) ++
    flagByte
      [(match e.cfg with
        | some c => c.polarity == .activeHigh
        | none => false),
       e.armed, e.signal, e.latch]

/-- Bytes 46 to 60: detectors, p_b, ports, profile (R124, R171, R189, R197). -/
def statusDetectors (p : Port) (s : State) : List Byte :=
  detectorBytes s.brk.dets.brk0 ++ detectorBytes s.brk.dets.brk1 ++
    detectorBytes s.brk.dets.brk2 ++ detectorBytes s.brk.dets.brk3 ++ optPlace s.brk.pb ++
    u8 s.ports.line.live.code ++ u8 s.ports.dryer.live.code ++ u8 s.ports.chill.live.code ++
    u8 ((s.port p).action.code + (if (s.port p).lock then 128 else 0)) ++
    u8 s.prof.code.code ++ u8 (optPortCode s.prof.holder)

/-- Bytes 61 to 69: the change in flight; absent, its port is 0x00 and its zone 0xFF (R148, R183,
R189; log 22). -/
def flightBytes : Option InFlight → List Byte
  | some c =>
    u8 (portCode (keyOwner c.key)) ++ u8 (keyKindCode c.key) ++ optPlace (keyZone c.key) ++
      u16 c.arrival.toNat ++ i16 c.value ++ i16 c.granted
  | none => [0x00, 0x00, 0xFF, 0x00, 0x00, 0x00, 0x00, 0x00, 0x00]

/-- Bytes 73 to 79: the requesting port's last change outcome (R147, R148, R189). -/
def outcomeBytes : Option ChangeOutcome → List Byte
  | some o =>
    u8 o.reason.code ++ u8 (keyKindCode o.key) ++ optPlace (keyZone o.key) ++
      u16 o.arrival.toNat ++ i16 o.value
  | none => [0x00, 0x00, 0xFF, 0x00, 0x00, 0x00, 0x00]

/-- Number of HELD entries (R148). -/
def heldCount (l : List PendingEntry) : Nat := (l.filter (fun e => e.status == .held)).length

/-- Bytes 61 to 79: the arbiter (R148, R189). -/
def statusArbiter (p : Port) (s : State) : List Byte :=
  flightBytes s.arb.inFlight ++ u8 s.arb.settleCount ++ u8 s.arb.list.length ++
    u8 (heldCount s.arb.list) ++ outcomeBytes (s.arb.outcomes.get p)

/-- Bytes 80 to 86: the log (R163, R189). -/
def statusLog (p : Port) (s : State) : List Byte :=
  u8 s.log.records.length ++ u8 (s.log.unread.get p) ++ u8 (s.log.skip.get p) ++
    u8 s.log.freeze.code ++ u8 s.log.freeze.remainder ++ u16 s.log.drops

/-- The status payload for port `p` (R171, R189). -/
def statusPayload (p : Port) (s : State) : List Byte :=
  statusHead s ++ statusGrants s ++ statusDetectors p s ++ statusArbiter p s ++ statusLog p s

end Sys2Proof.Machine
end

