-- ==== Sys2Proof/Machine/RequestsAny.lean ====
section
/-! DEFINITION. The requests any port may send: reads (R26, R27, R154, R171, R178), LOG_RELEASE
(R160), NOTICE_MAP (R179), LOSS_ACTION (R175), CHANGE_CANCEL (R133), the profile requests (R192 to
R195, R197) and RESTART (R196). -/
namespace Sys2Proof.Machine

/-! ### PING, STATUS_READ -/

/-- PING (R171). -/
def handlePing : Handler := fun _ _ s => .code s .ok

/-- STATUS_READ (R171). -/
def handleStatusRead : Handler := fun p _ s => { state := s, payload := statusPayload p s }

/-! ### ZONE_READ, RING_READ -/

/-- The fields of ZONE_READ's reply after its code (R27, R185); fields the zone's kind does not have
are 0 (R183). -/
def zoneBytes (pr : Profile) (s : State) (z : Nat) (e : ZoneItems) : List Byte :=
  let dryer := e.kind == .dryer
  let start := pr.zoneStart z
  u8 e.kind.number ++ u8 e.span ++ u8 start ++ u8 (start + e.span - 1) ++ u16 e.kHeat ++
    u16 (if dryer then e.kRelease else 0) ++ u16 (if dryer then e.share else 0) ++
    i16 e.setMin ++ i16 e.setMax ++ u16 e.tol ++ i16 (s.ring.inputs.getD z 0) ++
    u32 (if dryer then s.ring.release.getD z 0 else 0) ++ i16 (s.setpoint z) ++
    i16 (if dryer then s.cap z else 0)

/-- ZONE_READ (R27). -/
def handleZoneRead : Handler := fun _ pl s =>
  match s.prof.committed with
  | none => .code s .refusedPhase
  | some pr =>
    let z := fieldAt pl 0 1
    match pr.usedZone z with
    | none => .code s .refusedRange
    | some e => { state := s, payload := codeOnly .ok ++ zoneBytes pr s z e }

/-- RING_READ (R26). -/
def handleRingRead : Handler := fun _ pl s =>
  match s.prof.committed with
  | none => .code s .refusedPhase
  | some pr =>
    let first := fieldAt pl 0 1
    let count := fieldAt pl 1 1
    if 1 ≤ count ∧ count ≤ 12 ∧ first + count ≤ pr.ringLength then
      { state := s
        payload := codeOnly .ok ++ u8 first ++ u8 count ++
          ((s.ring.records.drop first).take count).flatMap SegRecord.bytes }
    else .code s .refusedRange

/-! ### The log -/

/-- The log after port `p` has read `n` records: its cursor moves past them, its skip count is 0
(R154). -/
def TransitLog.advanceCursor (l : TransitLog) (p : Port) (n : Nat) : TransitLog :=
  { l with
    unread := l.unread.set p (l.unread.get p - n)
    skip := l.skip.set p 0 }

/-- The unread records of port `p`, oldest first (R153). -/
def TransitLog.unreadRecords (l : TransitLog) (p : Port) : List LogRecord :=
  l.records.drop (l.records.length - l.unread.get p)

/-- LOG_READ (R154, R187). -/
def handleLogRead : Handler := fun p pl s =>
  let maximum := fieldAt pl 0 1
  if 1 ≤ maximum ∧ maximum ≤ 14 then
    let n := min maximum (s.log.unread.get p)
    let s1 := evalWatermarks (s.setLog (s.log.advanceCursor p n))
    { state := s1
      payload := codeOnly .ok ++ u8 (s.log.skip.get p) ++ u8 n ++ u8 (s1.log.unread.get p) ++
        u8 s.log.records.length ++ u8 s.log.freeze.code ++ u8 s.log.freeze.remainder ++
        u16 s.log.drops ++
        ((s.log.unreadRecords p).take n).flatMap LogRecord.bytes }
  else .code s .refusedRange

/-- The freeze ends: OPEN, the RELEASED record, the drop count back to 0 (R160). -/
def releaseFreeze (p : Port) (s : State) : State :=
  let s1 := logAppend (.released p s.log.drops) (s.setLog { s.log with freeze := .opened })
  s1.setLog { s1.log with drops := 0 }

/-- LOG_RELEASE (R160); the reply gives the freeze state found and the drop count released. -/
def handleLogRelease : Handler := fun p _ s =>
  let reply (drops : Nat) : List Byte := codeOnly .ok ++ u8 s.log.freeze.code ++ u16 drops
  match s.log.freeze with
  | .frozen => { state := releaseFreeze p s, payload := reply s.log.drops }
  | .armed _ => { state := releaseFreeze p s, payload := reply 0 }
  | .opened => { state := s, payload := reply 0 }

/-! ### Notices and loss action -/

/-- NOTICE_READ (R178). -/
def handleNoticeRead : Handler := fun p _ s =>
  let q := s.port p
  { state := s.modPort p PortState.emptyPending
    payload := codeOnly .ok ++ u16 q.pendingSet.toNat ++ u16 q.holding.toNat }

/-- A port with its notice map and mode written and its NOTE line set anew (R179; log 13). -/
def PortState.writeMap (map : NoticeSet) (mode : NoticeMode) (q : PortState) : PortState :=
  let q1 := { q with map := map, mode := mode, pulse := none }
  match mode with
  | .latched => q1.latchNote
  | .pulsed => { q1 with note := false }

/-- NOTICE_MAP (R179). -/
def handleNoticeMap : Handler := fun p pl s =>
  let map := BitVec.ofNat 16 (fieldAt pl 0 2)
  match noticeModeOf (fieldAt pl 2 1) with
  | none => .code s .refusedRange
  | some mode =>
    { state := s.modPort p (PortState.writeMap map mode)
      payload := codeOnly .ok ++ u16 map.toNat ++ u8 mode.code }

/-- LOSS_ACTION (R175); the new action is made known to the load and the envelope unit. -/
def handleLossAction : Handler := fun p pl s =>
  let q := s.port p
  if q.lock then { state := s, payload := codeOnly .refusedLocked ++ u8 q.action.code }
  else
    match lossActionOf (fieldAt pl 0 1) with
    | none => .code s .refusedRange
    | some a =>
      let s1 := s.modPort p (fun q => { q with action := a, lock := true })
      { state := arbiterPass (recompute (setFloorDuty s1))
        payload := codeOnly .ok ++ u8 a.code ++ u8 1 }

/-! ### CHANGE_CANCEL -/

/-- The change a kind code and a zone name (R185); none for a code that names no kind. -/
def changeKeyOf (kind zone : Nat) : Option ChangeKey :=
  match kind with
  | 1 => some .speed
  | 2 => some .exhaust
  | 3 => some (.zone zone)
  | 4 => some (.chill zone)
  | _ => none

/-- The zone of the key is a used zone; SPEED and EXHAUST have none (R133). -/
def zoneNamed (pr : Profile) (key : ChangeKey) : Bool :=
  match keyZone key with
  | none => true
  | some z => (pr.usedZone z).isSome

/-- CHANGE_CANCEL (R133). -/
def handleChangeCancel : Handler := fun p pl s =>
  match s.prof.committed with
  | none => .code s .refusedPhase
  | some pr =>
    match changeKeyOf (fieldAt pl 0 1) (fieldAt pl 1 1) with
    | none => .code s .refusedRange
    | some key =>
      if zoneNamed pr key then
        if keyOwner key = p then
          { state := cancelChange key s, payload := codeOnly .ok ++ u8 (standingCount s key) }
        else { state := s, payload := codeOnly .ok ++ u8 0 }
      else .code s .refusedRange

/-! ### The profile requests -/

/-- PROFILE_OPEN (R192). -/
def handleProfileOpen : Handler := fun p _ s =>
  let reply (r : Result) (t : State) : Answer :=
    { state := t
      payload := codeOnly r ++ u8 t.prof.code.code ++ u8 (optPortCode t.prof.holder) }
  match s.prof.holder with
  | none => reply .ok (s.setProf { s.prof with holder := some p, code := .staged })
  | some q => if q = p then reply .ok s else reply .refusedBusy s

/-- PROFILE_WRITE (R193). -/
def handleProfileWrite : Handler := fun p pl s =>
  match s.prof.holder with
  | none => .code s .refusedState
  | some q =>
    if q = p then
      let id := fieldAt pl 0 1
      let v := signed32 (fieldAt pl 1 4)
      match s.prof.staged.writeItem id v with
      | none => .code s .refusedRange
      | some pr =>
        { state := s.setProf { s.prof with staged := pr, code := .staged }
          payload := codeOnly .ok ++ u8 id ++ i32 v }
    else .code s .refusedBusy

/-- The reply of an accepted PROFILE_READ, or its range refusal (R193, R197). -/
def readItem (s : State) (x : Profile) (id : Nat) : Answer :=
  match x.item id with
  | none => .code s .refusedRange
  | some v =>
    { state := s
      payload := codeOnly .ok ++ u8 id ++ i32 v ++ u8 s.prof.code.code ++
        u8 (optPortCode s.prof.holder) ++ [s.prof.errorItem.getD 0] }

/-- PROFILE_READ (R193). -/
def handleProfileRead : Handler := fun _ pl s =>
  let id := fieldAt pl 0 1
  match fieldAt pl 1 1 with
  | 0 => readItem s s.prof.staged id
  | 1 =>
    match s.prof.committed with
    | none => .code s .refusedPhase
    | some pr => readItem s pr id
  | _ => .code s .refusedRange

/-- The phases in which a commit is taken (R194). -/
def Phase.commits : Phase → Bool
  | .unconfigured => true
  | .cold => true
  | .safe => true
  | .purge => false
  | .heating => false
  | .ready => false
  | .printing => false
  | .draining => false
  | .webBreak => false

/-- PROFILE_COMMIT (R194, R195, R197). -/
def handleProfileCommit : Handler := fun p _ s =>
  if s.line.phase.commits then
    match s.prof.holder with
    | none => .code s .refusedState
    | some q =>
      if q = p then
        match s.prof.staged.firstFailure with
        | some id =>
          let s1 := s.setProf
            { s.prof with code := .invalid, errorItem := some (BitVec.ofNat 8 id) }
          { state := s1
            payload := codeOnly .refusedState ++ u8 id ++ u8 0 ++ u8 s1.prof.code.code }
        | none =>
          let s1 := commitProfile p s
          { state := s1
            payload := codeOnly .ok ++ u8 0 ++ u8 s.prof.staged.ringLength ++
              u8 s1.prof.code.code }
      else .code s .refusedBusy
  else .code s .refusedPhase

/-- PROFILE_ABANDON (R192). -/
def handleProfileAbandon : Handler := fun p _ s =>
  match s.prof.holder with
  | none => { state := s, payload := codeOnly .ok ++ u8 s.prof.code.code }
  | some q =>
    if q = p then
      let s1 := abandonProfile s
      { state := s1, payload := codeOnly .ok ++ u8 s1.prof.code.code }
    else .code s .refusedBusy

/-- RESTART (R196). -/
def handleRestart : Handler := fun p _ s =>
  if s.line.phase = .unconfigured ∨ s.line.phase = .cold then .code (restartAll p s) .ok
  else .code s .refusedPhase

/-! ### The meanings -/

/-- PING. -/
def execPing (p : Port) (pl : List Byte) (s : State) : Host.Outcome State Fault Refusal :=
  .next (takeRequest .ping handlePing p pl s)

/-- STATUS_READ. -/
def execStatusRead (p : Port) (pl : List Byte) (s : State) : Host.Outcome State Fault Refusal :=
  .next (takeRequest .statusRead handleStatusRead p pl s)

/-- ZONE_READ. -/
def execZoneRead (p : Port) (pl : List Byte) (s : State) : Host.Outcome State Fault Refusal :=
  .next (takeRequest .zoneRead handleZoneRead p pl s)

/-- RING_READ. -/
def execRingRead (p : Port) (pl : List Byte) (s : State) : Host.Outcome State Fault Refusal :=
  .next (takeRequest .ringRead handleRingRead p pl s)

/-- LOG_READ. -/
def execLogRead (p : Port) (pl : List Byte) (s : State) : Host.Outcome State Fault Refusal :=
  .next (takeRequest .logRead handleLogRead p pl s)

/-- LOG_RELEASE. -/
def execLogRelease (p : Port) (pl : List Byte) (s : State) : Host.Outcome State Fault Refusal :=
  .next (takeRequest .logRelease handleLogRelease p pl s)

/-- NOTICE_READ. -/
def execNoticeRead (p : Port) (pl : List Byte) (s : State) : Host.Outcome State Fault Refusal :=
  .next (takeRequest .noticeRead handleNoticeRead p pl s)

/-- NOTICE_MAP. -/
def execNoticeMap (p : Port) (pl : List Byte) (s : State) : Host.Outcome State Fault Refusal :=
  .next (takeRequest .noticeMap handleNoticeMap p pl s)

/-- LOSS_ACTION. -/
def execLossAction (p : Port) (pl : List Byte) (s : State) : Host.Outcome State Fault Refusal :=
  .next (takeRequest .lossAction handleLossAction p pl s)

/-- CHANGE_CANCEL. -/
def execChangeCancel (p : Port) (pl : List Byte) (s : State) : Host.Outcome State Fault Refusal :=
  .next (takeRequest .changeCancel handleChangeCancel p pl s)

/-- PROFILE_OPEN. -/
def execProfileOpen (p : Port) (pl : List Byte) (s : State) : Host.Outcome State Fault Refusal :=
  .next (takeRequest .profileOpen handleProfileOpen p pl s)

/-- PROFILE_WRITE. -/
def execProfileWrite (p : Port) (pl : List Byte) (s : State) : Host.Outcome State Fault Refusal :=
  .next (takeRequest .profileWrite handleProfileWrite p pl s)

/-- PROFILE_READ. -/
def execProfileRead (p : Port) (pl : List Byte) (s : State) : Host.Outcome State Fault Refusal :=
  .next (takeRequest .profileRead handleProfileRead p pl s)

/-- PROFILE_COMMIT. -/
def execProfileCommit (p : Port) (pl : List Byte) (s : State) : Host.Outcome State Fault Refusal :=
  .next (takeRequest .profileCommit handleProfileCommit p pl s)

/-- PROFILE_ABANDON. -/
def execProfileAbandon (p : Port) (pl : List Byte) (s : State) :
    Host.Outcome State Fault Refusal :=
  .next (takeRequest .profileAbandon handleProfileAbandon p pl s)

/-- RESTART. -/
def execRestart (p : Port) (pl : List Byte) (s : State) : Host.Outcome State Fault Refusal :=
  .next (takeRequest .restart handleRestart p pl s)

end Sys2Proof.Machine
end

