-- ==== Sys2Proof/Machine/RequestsOwned.lean ====
section
/-! DEFINITION. The requests of one port: the change requests (R125 to R132), impression (R88, R89),
entry settings (R9), DETECTOR_SET (R111), BREAK_CLEAR (R121, R122), SAFE_CLEAR (R104), reports (R4,
R5, R44), PURGE_START (R85), COOL_DOWN (R100). -/
namespace Sys2Proof.Machine

/-! ### Change requests -/

/-- The reply payload of a change request (R185); SPEED_RAMP adds its rate. -/
def changeReply (r : Result) (v : Int) (arrival : Word16) (d : Disposition) (rate : List Byte) :
    List Byte :=
  codeOnly r ++ i16 v ++ u16 arrival.toNat ++ u8 d.code ++ rate

/-- A change taken at once, with its reply (R127). -/
def answerAtOnce (key : ChangeKey) (v : Int) (clamped : Bool) (rate : List Byte) (s : State) :
    Answer :=
  { state := takeAtOnce key v s
    payload := changeReply (if clamped then .clamped else .ok) v 0 .atOnce rate }

/-- A change of the risky direction, admitted at `v` (R129 to R132). -/
def answerAdmission (pr : Profile) (key : ChangeKey) (v : Int) (clamped : Bool) (rate : List Byte)
    (s : State) : Answer :=
  match placeChange pr key v s with
  | none => .code s .refusedFull
  | some a =>
    { state := a.state
      payload := changeReply (if clamped then .clamped else a.result) v a.arrival a.disposition
        rate }

/-- SPEED_RAMP (R125 to R132). -/
def handleSpeedRamp : Handler := fun _ pl s =>
  match s.prof.committed with
  | none => .code s .refusedPhase
  | some pr =>
    let target := fieldAt pl 0 2
    let asked := fieldAt pl 2 2
    let rate := clampNat 1 pr.rampRateMax asked
    let rateClamped := rate != asked
    if target ≤ s.line.speedGrant then
      let v := max target pr.crawlLimit
      answerAtOnce .speed v (v != target || rateClamped) (u16 rate) s
    else if s.line.phase = .webBreak ∨ s.line.phase = .safe then .code s .refusedPhase
    else
      let v := min target s.env.ceiling
      if v ≤ s.line.speedGrant then
        { state := s, payload := changeReply .clamped v 0 .notAdmitted (u16 rate) }
      else answerAdmission pr .speed v (v != target || rateClamped) (u16 rate) s

/-- EXHAUST_TARGET (R125 to R131). -/
def handleExhaustTarget : Handler := fun _ pl s =>
  match s.prof.committed with
  | none => .code s .refusedPhase
  | some pr =>
    let target := fieldAt pl 0 2
    if s.line.exhaust ≤ target ∨ s.line.phase.heated = false then
      answerAtOnce .exhaust target false [] s
    else answerAdmission pr .exhaust target false [] s

/-- ZONE_SETPOINT (R125 to R131). -/
def handleZoneSetpoint : Handler := fun _ pl s =>
  match s.prof.committed with
  | none => .code s .refusedPhase
  | some pr =>
    let z := fieldAt pl 0 1
    let asked := signed16 (fieldAt pl 1 2)
    if z < pr.dryers.length then
      if s.line.phase.heated then
        let v := clampZone pr s z asked
        if v = s.setpoint z then answerAtOnce (.zone z) v (v != asked) [] s
        else answerAdmission pr (.zone z) v (v != asked) [] s
      else if s.line.phase = .cold ∨ s.line.phase = .purge then
        let v := clampSetpoint pr z asked
        answerAtOnce (.zone z) v (v != asked) [] s
      else .code s .refusedPhase
    else .code s .refusedRange

/-- CHILL_SETPOINT (R125 to R131). -/
def handleChillSetpoint : Handler := fun _ pl s =>
  match s.prof.committed with
  | none => .code s .refusedPhase
  | some pr =>
    let c := fieldAt pl 0 1
    let asked := signed16 (fieldAt pl 1 2)
    if pr.dryers.length ≤ c ∧ c < pr.used.length then
      let v := clampSetpoint pr c asked
      if s.line.phase.heated ∧ s.setpoint c < v then
        answerAdmission pr (.chill c) v (v != asked) [] s
      else answerAtOnce (.chill c) v (v != asked) [] s
    else .code s .refusedRange

/-! ### Impression -/

/-- IMPRESSION_ON (R88); the repeat byte is tested after the phase and before the conditions
(log 12). -/
def handleImpressionOn : Handler := fun _ pl s =>
  match s.prof.committed with
  | none => .code s .refusedPhase
  | some pr =>
    let count := fieldAt pl 0 3
    let rep := fieldAt pl 3 1
    if s.line.phase = .ready then
      if rep ≤ 1 then
        if pr.printMin ≤ s.motion.vMeas ∧ s.motion.vMeas ≤ s.env.ceiling ∧ s.allActive then
          let s1 := s.setLine
            { s.line with
              fill := pr.ringLength
              mark := 0
              run :=
                if count = 0 then none
                else some { base := count, current := count, repeats := rep == 1 } }
          .code (arbiterPass (phaseWrite .printing .impressionOn s1)) .ok
        else .code s .refusedState
      else .code s .refusedRange
    else .code s .refusedPhase

/-- IMPRESSION_OFF (R89). -/
def handleImpressionOff : Handler := fun _ _ s =>
  if s.line.phase = .printing then
    .code (arbiterPass (enterDraining .impressionOff s)) .ok
  else .code s .ok

/-! ### Entry settings -/

/-- SOLVENT_CHARGE (R9). -/
def handleSolventCharge : Handler := fun _ pl s =>
  let asked := fieldAt pl 0 2
  let v := clampNat 0 60000 asked
  { state := s.setRing { s.ring with charge := v }
    payload := codeOnly (if v = asked then .ok else .clamped) ++ u16 v }

/-- JOB_TAG (R9). -/
def handleJobTag : Handler := fun _ pl s =>
  let tag := fieldAt pl 1 2
  match fieldAt pl 0 1 with
  | 0 => .code (s.setRing { s.ring with tag := none }) .ok
  | 1 =>
    if tag = 0 then .code s .refusedRange
    else .code (s.setRing { s.ring with tag := some tag }) .ok
  | _ => .code s .refusedRange

/-! ### Detectors, clears -/

/-- The POLARITY of DETECTOR_SET's byte (R185). -/
def polarityByte : Nat → Option Polarity
  | 0 => some .activeLow
  | 1 => some .activeHigh
  | _ => none

/-- The armed flag of DETECTOR_SET's byte (R185). -/
def armedByte : Nat → Option Bool
  | 0 => some false
  | 1 => some true
  | _ => none

/-- DETECTOR_SET (R111, R112). -/
def handleDetectorSet : Handler := fun _ pl s =>
  match s.prof.committed with
  | none => .code s .refusedPhase
  | some _ =>
    match detectorOf (fieldAt pl 0 1), armedByte (fieldAt pl 1 1),
        polarityByte (fieldAt pl 2 1) with
    | some d, some armed, some polarity =>
      let e := s.det d
      let e1 :=
        { e with
          armed := armed
          cfg := some { position := e.place, polarity := polarity } }
      .code (changeDetector d e1 s) .ok
    | _, _, _ => .code s .refusedRange

/-- BREAK_CLEAR (R121, R122). -/
def handleBreakClear : Handler := fun _ _ s =>
  if s.line.phase = .webBreak then
    if s.signalsClear ∧ s.motion.state = .still then
      let s1 := clearLatches s
      let s2 := s1.setBrk { s1.brk with pb := none }
      let s3 :=
        match s2.prof.committed with
        | some pr => ringRestore pr s2
        | none => s2
      .code (arbiterPass (phaseWrite .purge .breakClear s3)) .ok
    else .code s .refusedState
  else if s.signalsClear then .code (clearLatches s) .ok
  else .code s .refusedState

/-- SAFE_CLEAR (R104). -/
def handleSafeClear : Handler := fun _ _ s =>
  match s.prof.committed with
  | none => .code s .refusedPhase
  | some pr =>
    if s.line.phase = .safe then
      if s.line.estopActive = false ∧ s.motion.state = .still ∧ s.allActive ∧
          s.load.peak < pr.loadWarn ∧ s.anyLatch = false then
        .code (arbiterPass (phaseWrite .purge .safeClear (ringRestore pr s))) .ok
      else .code s .refusedState
    else .code s .refusedPhase

/-! ### Reports -/

/-- Some value was changed by the clamp into -400 to 3500 (R4). -/
def anyClamped (l : List Int) : Bool := l.any (fun v => clampTemp v != v)

/-- The reply code of an accepted report (R4). -/
def reportResult (l : List Int) : Result := if anyClamped l then .clamped else .ok

/-- Some zone's reported air exceeds its heat cap plus TOL (R78). -/
def zoneTooHigh : List ZoneItems → List Int → List Int → Bool
  | e :: es, cap :: caps, a :: as =>
    decide (cap + e.tol < a) || zoneTooHigh es caps as
  | _, _, _ => false

/-- ZONE_HIGH on an accepted ZONE_REPORT in a heated phase (R78). -/
def reportZoneHigh (pr : Profile) (s : State) : State :=
  if s.line.phase.heated && zoneTooHigh pr.dryers s.env.heatCaps s.ring.inputs then
    raiseAll .zoneHigh s
  else s

/-- An accepted ZONE_REPORT through the blocks (R4, R44, R48, R70, R78, R86, R140; log 9). -/
def takeZoneReport (pr : Profile) (flow : Nat) (values : List Int) (s : State) : State :=
  let s1 := s.setRing
    { s.ring with
      inputs := values.map clampTemp ++ s.ring.inputs.drop pr.dryers.length }
  let s2 := reportZoneHigh pr (recompute (loadReport pr flow s1))
  settleObserve .zoneReport (arbiterPass (evaluateReady (arbiterPass s2)))

/-- ZONE_REPORT (R4, R5, R44). -/
def handleZoneReport : Handler := fun _ pl s =>
  match s.prof.committed with
  | none => .code s .refusedPhase
  | some pr =>
    let values := signedValues (pl.drop 2)
    if values.length = pr.dryers.length then
      .code (takeZoneReport pr (fieldAt pl 0 2) values s) (reportResult values)
    else .code s .refusedRange

/-- An accepted CHILL_REPORT through the blocks (R4, R70, R86, R140; log 9). -/
def takeChillReport (pr : Profile) (values : List Int) (s : State) : State :=
  let s1 := s.setRing
    { s.ring with
      inputs := s.ring.inputs.take pr.dryers.length ++ values.map clampTemp }
  settleObserve .chillReport (arbiterPass (evaluateReady (arbiterPass (recompute s1))))

/-- CHILL_REPORT (R4, R5). -/
def handleChillReport : Handler := fun _ pl s =>
  match s.prof.committed with
  | none => .code s .refusedPhase
  | some pr =>
    let values := signedValues pl
    if values.length = pr.chills.length then
      .code (takeChillReport pr values s) (reportResult values)
    else .code s .refusedRange

/-! ### PURGE_START, COOL_DOWN -/

/-- PURGE_START (R85). -/
def handlePurgeStart : Handler := fun _ _ s =>
  if s.line.phase = .cold then
    if s.allActive ∧ s.anyLatch = false ∧ s.prof.holder = none then
      .code (arbiterPass (phaseWrite .purge .purgeStart s)) .ok
    else .code s .refusedState
  else .code s .refusedPhase

/-- COOL_DOWN (R100). -/
def handleCoolDown : Handler := fun _ _ s =>
  if s.line.phase = .heating ∨ s.line.phase = .ready then
    .code (arbiterPass (phaseWrite .cold .coolDown s)) .ok
  else .code s .refusedPhase

/-! ### The meanings -/

/-- SPEED_RAMP. -/
def execSpeedRamp (p : Port) (pl : List Byte) (s : State) : Host.Outcome State Fault Refusal :=
  .next (takeRequest .speedRamp handleSpeedRamp p pl s)

/-- IMPRESSION_ON. -/
def execImpressionOn (p : Port) (pl : List Byte) (s : State) : Host.Outcome State Fault Refusal :=
  .next (takeRequest .impressionOn handleImpressionOn p pl s)

/-- IMPRESSION_OFF. -/
def execImpressionOff (p : Port) (pl : List Byte) (s : State) : Host.Outcome State Fault Refusal :=
  .next (takeRequest .impressionOff handleImpressionOff p pl s)

/-- SOLVENT_CHARGE. -/
def execSolventCharge (p : Port) (pl : List Byte) (s : State) : Host.Outcome State Fault Refusal :=
  .next (takeRequest .solventCharge handleSolventCharge p pl s)

/-- JOB_TAG. -/
def execJobTag (p : Port) (pl : List Byte) (s : State) : Host.Outcome State Fault Refusal :=
  .next (takeRequest .jobTag handleJobTag p pl s)

/-- DETECTOR_SET. -/
def execDetectorSet (p : Port) (pl : List Byte) (s : State) : Host.Outcome State Fault Refusal :=
  .next (takeRequest .detectorSet handleDetectorSet p pl s)

/-- BREAK_CLEAR. -/
def execBreakClear (p : Port) (pl : List Byte) (s : State) : Host.Outcome State Fault Refusal :=
  .next (takeRequest .breakClear handleBreakClear p pl s)

/-- SAFE_CLEAR. -/
def execSafeClear (p : Port) (pl : List Byte) (s : State) : Host.Outcome State Fault Refusal :=
  .next (takeRequest .safeClear handleSafeClear p pl s)

/-- ZONE_REPORT. -/
def execZoneReport (p : Port) (pl : List Byte) (s : State) : Host.Outcome State Fault Refusal :=
  .next (takeRequest .zoneReport handleZoneReport p pl s)

/-- ZONE_SETPOINT. -/
def execZoneSetpoint (p : Port) (pl : List Byte) (s : State) : Host.Outcome State Fault Refusal :=
  .next (takeRequest .zoneSetpoint handleZoneSetpoint p pl s)

/-- EXHAUST_TARGET. -/
def execExhaustTarget (p : Port) (pl : List Byte) (s : State) : Host.Outcome State Fault Refusal :=
  .next (takeRequest .exhaustTarget handleExhaustTarget p pl s)

/-- PURGE_START. -/
def execPurgeStart (p : Port) (pl : List Byte) (s : State) : Host.Outcome State Fault Refusal :=
  .next (takeRequest .purgeStart handlePurgeStart p pl s)

/-- COOL_DOWN. -/
def execCoolDown (p : Port) (pl : List Byte) (s : State) : Host.Outcome State Fault Refusal :=
  .next (takeRequest .coolDown handleCoolDown p pl s)

/-- CHILL_REPORT. -/
def execChillReport (p : Port) (pl : List Byte) (s : State) : Host.Outcome State Fault Refusal :=
  .next (takeRequest .chillReport handleChillReport p pl s)

/-- CHILL_SETPOINT. -/
def execChillSetpoint (p : Port) (pl : List Byte) (s : State) : Host.Outcome State Fault Refusal :=
  .next (takeRequest .chillSetpoint handleChillSetpoint p pl s)

end Sys2Proof.Machine
end

