-- ==== Sys2Proof/Machine/Frames.lean ====
section
/-! DEFINITION. Frames byte by byte (R165, R166), and the commands BYTE_RECEIVED, BAD_FRAME,
UNKNOWN_KIND, GAP_TIMER_EXPIRY, REPLY_TRANSMISSION_END, NOTE_PULSE_END, WINDOW_TIMER_EXPIRY. -/
namespace Sys2Proof.Machine

/-- The handler of each request (R170). -/
def handlerOf : Request → Handler
  | .ping => handlePing
  | .statusRead => handleStatusRead
  | .zoneRead => handleZoneRead
  | .ringRead => handleRingRead
  | .logRead => handleLogRead
  | .logRelease => handleLogRelease
  | .noticeRead => handleNoticeRead
  | .noticeMap => handleNoticeMap
  | .lossAction => handleLossAction
  | .changeCancel => handleChangeCancel
  | .profileOpen => handleProfileOpen
  | .profileWrite => handleProfileWrite
  | .profileRead => handleProfileRead
  | .profileCommit => handleProfileCommit
  | .profileAbandon => handleProfileAbandon
  | .restart => handleRestart
  | .speedRamp => handleSpeedRamp
  | .impressionOn => handleImpressionOn
  | .impressionOff => handleImpressionOff
  | .solventCharge => handleSolventCharge
  | .jobTag => handleJobTag
  | .detectorSet => handleDetectorSet
  | .breakClear => handleBreakClear
  | .safeClear => handleSafeClear
  | .zoneReport => handleZoneReport
  | .zoneSetpoint => handleZoneSetpoint
  | .exhaustTarget => handleExhaustTarget
  | .purgeStart => handlePurgeStart
  | .coolDown => handleCoolDown
  | .chillReport => handleChillReport
  | .chillSetpoint => handleChillSetpoint

/-- A valid frame of kind `kind` with payload `pl` is taken on port `p` (R167). -/
def takeFrame (p : Port) (kind : Byte) (pl : List Byte) (s : State) : State :=
  match requestOf kind with
  | some r => takeRequest r (handlerOf r) p pl s
  | none => takeUnknown p kind s

/-- A byte without a framing error reaches the receiver (R165, R166). -/
def takeByte (p : Port) (b : Byte) (s : State) : State :=
  match (s.port p).rx with
  | .hunt => if b = 0xA5 then receiverTo (.kind crcInit) p s else s
  | .kind crc => receiverTo (.length b (crcByte crc b)) p s
  | .length k crc =>
    let crc1 := crcByte crc b
    if Config.payloadMax < b.toNat then failFrame p (some k) s
    else if b.toNat = 0 then receiverTo (.check k [] crc1 none) p s
    else receiverTo (.payload k b.toNat [] crc1) p s
  | .payload k n got crc =>
    let got1 := got ++ [b]
    let crc1 := crcByte crc b
    if n ≤ got1.length then receiverTo (.check k got1 crc1 none) p s
    else receiverTo (.payload k n got1 crc1) p s
  | .check k pl crc none => receiverTo (.check k pl crc (some b)) p s
  | .check k pl crc (some hi) =>
    if hi ++ b = crc then takeFrame p k pl s else failFrame p (some k) s

/-- What the receiver does with a byte, or with a byte that has a framing error, which in HUNT is
ignored and inside a frame fails it (R165, R166). -/
def takeRx (p : Port) (rx : RxByte) (s : State) : State :=
  match rx with
  | .data b => takeByte p b s
  | .framingError =>
    if (s.port p).rx = .hunt then s else failFrame p (s.port p).rx.answerable s

/-- BYTE_RECEIVED (R165). A byte that completes or fails the frame does what R166 and R167 give
(log 20). -/
def execByteReceived (p : Port) (rx : RxByte) (s : State) : Host.Outcome State Fault Refusal :=
  .next (takeRx p rx s)

/-- BAD_FRAME: the byte at which the frame fails (R166; log 20). -/
def execBadFrame (p : Port) (rx : RxByte) (s : State) : Host.Outcome State Fault Refusal :=
  .next (takeRx p rx s)

/-- UNKNOWN_KIND: a valid frame whose kind names no request (R167; log 21). -/
def execUnknownKind (p : Port) (kind : Byte) (pl : List Byte) (s : State) :
    Host.Outcome State Fault Refusal :=
  .next (takeFrame p kind pl s)

/-- The gap timer expires inside a frame (R166). -/
def gapExpiry (p : Port) (s : State) : State :=
  match (s.port p).gap with
  | some _ => failFrame p (s.port p).rx.answerable s
  | none => s

/-- GAP_TIMER_EXPIRY (R166). -/
def execGapTimerExpiry (p : Port) (s : State) : Host.Outcome State Fault Refusal :=
  .next (gapExpiry p s)

/-- The end of a reply's transmission: the waiting reply starts (R169). -/
def PortState.endTransmission (q : PortState) : PortState :=
  match q.tx with
  | none => { q with txTimer := none }
  | some _ =>
    match q.waiting with
    | some r => PortState.transmit r { q with waiting := none }
    | none => { q with tx := none, txTimer := none }

/-- REPLY_TRANSMISSION_END (R169). -/
def execReplyTransmissionEnd (p : Port) (s : State) : Host.Outcome State Fault Refusal :=
  .next (s.modPort p PortState.endTransmission)

/-- The end of a NOTE pulse (R181). -/
def PortState.endPulse (q : PortState) : PortState :=
  match q.pulse, q.mode with
  | some _, .pulsed => { q with note := false, pulse := none }
  | some _, .latched => { q with pulse := none }
  | none, _ => q

/-- NOTE_PULSE_END (R181). -/
def execNotePulseEnd (p : Port) (s : State) : Host.Outcome State Fault Refusal :=
  .next (s.modPort p PortState.endPulse)

/-- The window timer of an ACTIVE port expires (R173). -/
def windowExpiry (p : Port) (s : State) : State :=
  match (s.port p).window, (s.port p).live with
  | some _, .active => portLoss p s
  | some _, .quiet => s.modPort p (fun q => { q with window := none })
  | some _, .lost => s.modPort p (fun q => { q with window := none })
  | none, _ => s

/-- WINDOW_TIMER_EXPIRY (R173). -/
def execWindowTimerExpiry (p : Port) (s : State) : Host.Outcome State Fault Refusal :=
  .next (windowExpiry p s)

end Sys2Proof.Machine
end

