-- ==== Sys2Proof/Machine/Events.lean ====
section
/-! DEFINITION. The commands that are no frames: RESET, the encoder, the timers of the blocks, the PWM
stage, ESTOP and the detectors. -/
namespace Sys2Proof.Machine

/-! ### RESET -/

/-- RESET: power-on or a low level on RESET, ended with `lines` on the inputs (R40 and the reset rules
of every chapter). The queue and the model's own counter are kept (log 7). -/
def execReset (lines : InputLines) (s : State) : Host.Outcome State Fault Refusal :=
  .next { State.afterReset lines with pending := s.pending, freeCount := s.freeCount }

/-! ### Encoder -/

/-- The encoder reference moved by `f` (R30). -/
def moveReference (f : EncPair → EncPair) (s : State) : State :=
  s.setMotion { s.motion with encRef := f s.motion.encRef }

/-- FORWARD_PULSE (R30 to R32, R38). -/
def execForwardPulse (s : State) : Host.Outcome State Fault Refusal :=
  let s1 := moveReference encForward s
  match s.prof.committed with
  | none => .next s1
  | some pr => .next (forward pr s1)

/-- REVERSE_PULSE (R30, R31, R33, R38). -/
def execReversePulse (s : State) : Host.Outcome State Fault Refusal :=
  let s1 := moveReference encReverse s
  match s.prof.committed with
  | none => .next s1
  | some pr => .next (backward pr s1)

/-- ENCODER_DOUBLE_CHANGE (R30). -/
def execEncoderDoubleChange (s : State) : Host.Outcome State Fault Refusal :=
  .next (moveReference encOpposite s)

/-! ### Timers (log 4: an expiry acts while its timer runs) -/

/-- STALL_TIMER_EXPIRY (R37). -/
def execStallTimerExpiry (s : State) : Host.Outcome State Fault Refusal :=
  match s.motion.stallTimer with
  | none => .next s
  | some _ => .next (becomeStill s)

/-- DWELL_TIMER_EXPIRY (R39). -/
def execDwellTimerExpiry (s : State) : Host.Outcome State Fault Refusal :=
  match s.motion.dwellTimer, s.prof.committed with
  | none, _ => .next s
  | some _, some pr => .next (issueDwell pr s)
  | some _, none => .next (s.setMotion { s.motion with dwellTimer := none })

/-- The high time of a PWM period at a duty (R56). -/
def highTimeOf (duty : Nat) : Nat := duty * 1000 / 256

/-- PWM_PERIOD_START (R56). -/
def execPwmPeriodStart (s : State) : Host.Outcome State Fault Refusal :=
  .next (s.setPwm { elapsed := 0, highTime := highTimeOf s.load.floorDuty })

/-- The purge volume after an expiry (R58). -/
def purgeVolumeAfter (pr : Profile) (s : State) : Nat :=
  if pr.purgeFlow ≤ s.load.flow ∧ s.ports.dryer.live ≠ .lost then
    min 16777215 (s.line.purgeVolume + s.load.flow / 10)
  else 0

/-- A purge expiry in PURGE (R58, R59). -/
def purgeExpiry (pr : Profile) (s : State) : State :=
  let v := purgeVolumeAfter pr s
  let s1 := s.setLine
    { s.line with purgeTimer := some Config.purgeLength, purgeVolume := v }
  if pr.purgeVolume ≤ v then arbiterPass (enterHeating .purgeDone s1) else s1

/-- PURGE_TIMER_EXPIRY (R58, R59). -/
def execPurgeTimerExpiry (s : State) : Host.Outcome State Fault Refusal :=
  match s.line.purgeTimer, s.prof.committed with
  | none, _ => .next s
  | some _, some pr =>
    if s.line.phase = .purge then .next (purgeExpiry pr s)
    else .next (s.setLine { s.line with purgeTimer := none })
  | some _, none => .next (s.setLine { s.line with purgeTimer := none })

/-- A stall grace expiry (R95). -/
def stallGraceEnds (s : State) : State :=
  let s1 := recompute (setIdle true (s.setLine { s.line with stallGrace := none }))
  arbiterPass (if s1.line.phase = .printing then enterDraining .stall s1 else s1)

/-- STALL_GRACE_EXPIRY (R95). -/
def execStallGraceExpiry (s : State) : Host.Outcome State Fault Refusal :=
  match s.line.stallGrace with
  | none => .next s
  | some _ => .next (stallGraceEnds s)

/-- An excess timer expiry (R97). -/
def excessEnds (s : State) : State :=
  let s1 := raiseAll .excess (s.setLine { s.line with excess := none })
  if s1.line.phase = .printing then arbiterPass (enterDraining .excess s1) else s1

/-- EXCESS_TIMER_EXPIRY (R97). -/
def execExcessTimerExpiry (s : State) : Host.Outcome State Fault Refusal :=
  match s.line.excess with
  | none => .next s
  | some _ => .next (excessEnds s)

/-- SETTLE_TIMER_EXPIRY (R141). -/
def execSettleTimerExpiry (s : State) : Host.Outcome State Fault Refusal :=
  match s.arb.settleTimer, s.arb.inFlight with
  | none, _ => .next s
  | some _, some _ => .next (settleTimeout s)
  | some _, none => .next (s.setArb { s.arb with settleTimer := none })

/-- WAITING_TIMER_EXPIRY of the entry of key `key` (R135). -/
def execWaitingTimerExpiry (key : ChangeKey) (s : State) : Host.Outcome State Fault Refusal :=
  .next (waitingTimeout key s)

/-! ### ESTOP and detectors -/

/-- ESTOP_ACTIVATION (R101, R102); a level already ACTIVE does not change (log 17). -/
def execEstopActivation (s : State) : Host.Outcome State Fault Refusal :=
  if s.line.estopActive then .next s
  else .next (enterSafe .estop (s.setLine { s.line with estopActive := true }))

/-- ESTOP_RELEASE (R101). -/
def execEstopRelease (s : State) : Host.Outcome State Fault Refusal :=
  .next (s.setLine { s.line with estopActive := false })

/-- DETECTOR_LEVEL_CHANGE (R110, R112); a level already held is no change (log 17). -/
def execDetectorLevelChange (d : Detector) (level : Level) (s : State) :
    Host.Outcome State Fault Refusal :=
  .next (changeDetector d { s.det d with level := level } s)

end Sys2Proof.Machine
end

