-- ==== Sys2Proof/Machine/Clock.lean ====
section
/-! DEFINITION. Time: one microsecond at every block (R28, R29, R34, R56), and the expiries that are
due (log 2, log 3). -/
namespace Sys2Proof.Machine

/-- A timer one microsecond later (R29). -/
def Timer.tick (t : Timer) : Timer :=
  match t with
  | some n => some (n - 1)
  | none => none

/-- The timer runs out: its expiry is due (R29). -/
def Timer.due (t : Timer) : Bool := t == some 0

/-- The time base one microsecond later (R28). -/
def TimeBase.tick (x : TimeBase) : TimeBase :=
  if 999 ≤ x.sub then { us := x.us + 1, ms := x.ms + 1, sub := 0 }
  else { x with us := x.us + 1, sub := x.sub + 1 }

/-- The elapsed count one microsecond later, saturating (R34). -/
def AdvanceRef.tick (r : AdvanceRef) : AdvanceRef :=
  { r with elapsed := min 4294967295 (r.elapsed + 1) }

/-- The motion unit one microsecond later. -/
def Motion.tick (m : Motion) : Motion :=
  { m with
    last := m.last.map AdvanceRef.tick
    stallTimer := Timer.tick m.stallTimer
    dwellTimer := Timer.tick m.dwellTimer }

/-- The phase unit one microsecond later. -/
def PhaseUnit.tick (l : PhaseUnit) : PhaseUnit :=
  { l with
    stallGrace := Timer.tick l.stallGrace
    excess := Timer.tick l.excess
    purgeTimer := Timer.tick l.purgeTimer }

/-- The arbiter one microsecond later. -/
def Arbiter.tick (a : Arbiter) : Arbiter :=
  { a with
    list := a.list.map (fun e => { e with timer := Timer.tick e.timer })
    settleTimer := Timer.tick a.settleTimer }

/-- A port one microsecond later. -/
def PortState.tick (q : PortState) : PortState :=
  { q with
    gap := Timer.tick q.gap
    txTimer := Timer.tick q.txTimer
    window := Timer.tick q.window
    pulse := Timer.tick q.pulse }

/-- The machine one microsecond later, nothing else having reached it. -/
def tick (s : State) : State :=
  { s with
    time := s.time.tick
    motion := s.motion.tick
    pwm := { s.pwm with elapsed := s.pwm.elapsed + 1 }
    line := s.line.tick
    arb := s.arb.tick
    ports := PerPort.of (fun p => (s.ports.get p).tick) }

/-- `c` where its timer is due. -/
def whenDue (t : Timer) (c : Instr) : List Instr := if Timer.due t then [c] else []

/-- The expiries of port `p` that are due. -/
def duePort (p : Port) (q : PortState) : List Instr :=
  whenDue q.gap (.gapTimerExpiry p) ++ whenDue q.txTimer (.replyTransmissionEnd p) ++
    whenDue q.window (.windowTimerExpiry p) ++ whenDue q.pulse (.notePulseEnd p)

/-- The waiting timers that are due. -/
def dueEntries (l : List PendingEntry) : List Instr :=
  l.flatMap (fun e =>
    match e.status with
    | .queued => whenDue e.timer (.waitingTimerExpiry e.key)
    | .held => [])

/-- The start of the next PWM period, when it is due (R56). -/
def duePeriod (x : Pwm) : List Instr :=
  if Config.pwmPeriod ≤ x.elapsed then [.pwmPeriodStart] else []

/-- Every expiry that is due. -/
def dueCommands (s : State) : List Instr :=
  whenDue s.motion.stallTimer .stallTimerExpiry ++ whenDue s.motion.dwellTimer .dwellTimerExpiry ++
    duePeriod s.pwm ++ whenDue s.line.purgeTimer .purgeTimerExpiry ++
    whenDue s.line.stallGrace .stallGraceExpiry ++ whenDue s.line.excess .excessTimerExpiry ++
    whenDue s.arb.settleTimer .settleTimerExpiry ++ dueEntries s.arb.list ++
    duePort .line s.ports.line ++ duePort .dryer s.ports.dryer ++ duePort .chill s.ports.chill

end Sys2Proof.Machine
end

