-- ==== Sys2Proof/Machine/Dispatch.lean ====
section
/-! DEFINITION. One arm per command. -/
namespace Sys2Proof.Machine

def exec (i : Instr) (s : State) : Host.Outcome State Fault Refusal :=
  match i with
  | .reset lines => Sys2Proof.Machine.execReset lines s
  | .forwardPulse => Sys2Proof.Machine.execForwardPulse s
  | .reversePulse => Sys2Proof.Machine.execReversePulse s
  | .encoderDoubleChange => Sys2Proof.Machine.execEncoderDoubleChange s
  | .stallTimerExpiry => Sys2Proof.Machine.execStallTimerExpiry s
  | .dwellTimerExpiry => Sys2Proof.Machine.execDwellTimerExpiry s
  | .pwmPeriodStart => Sys2Proof.Machine.execPwmPeriodStart s
  | .purgeTimerExpiry => Sys2Proof.Machine.execPurgeTimerExpiry s
  | .stallGraceExpiry => Sys2Proof.Machine.execStallGraceExpiry s
  | .excessTimerExpiry => Sys2Proof.Machine.execExcessTimerExpiry s
  | .settleTimerExpiry => Sys2Proof.Machine.execSettleTimerExpiry s
  | .waitingTimerExpiry key => Sys2Proof.Machine.execWaitingTimerExpiry key s
  | .windowTimerExpiry p => Sys2Proof.Machine.execWindowTimerExpiry p s
  | .gapTimerExpiry p => Sys2Proof.Machine.execGapTimerExpiry p s
  | .badFrame p rx => Sys2Proof.Machine.execBadFrame p rx s
  | .unknownKind p kind pl => Sys2Proof.Machine.execUnknownKind p kind pl s
  | .replyTransmissionEnd p => Sys2Proof.Machine.execReplyTransmissionEnd p s
  | .notePulseEnd p => Sys2Proof.Machine.execNotePulseEnd p s
  | .estopActivation => Sys2Proof.Machine.execEstopActivation s
  | .estopRelease => Sys2Proof.Machine.execEstopRelease s
  | .detectorLevelChange d level => Sys2Proof.Machine.execDetectorLevelChange d level s
  | .ping p pl => Sys2Proof.Machine.execPing p pl s
  | .statusRead p pl => Sys2Proof.Machine.execStatusRead p pl s
  | .zoneRead p pl => Sys2Proof.Machine.execZoneRead p pl s
  | .ringRead p pl => Sys2Proof.Machine.execRingRead p pl s
  | .logRead p pl => Sys2Proof.Machine.execLogRead p pl s
  | .logRelease p pl => Sys2Proof.Machine.execLogRelease p pl s
  | .noticeRead p pl => Sys2Proof.Machine.execNoticeRead p pl s
  | .noticeMap p pl => Sys2Proof.Machine.execNoticeMap p pl s
  | .lossAction p pl => Sys2Proof.Machine.execLossAction p pl s
  | .changeCancel p pl => Sys2Proof.Machine.execChangeCancel p pl s
  | .profileOpen p pl => Sys2Proof.Machine.execProfileOpen p pl s
  | .profileWrite p pl => Sys2Proof.Machine.execProfileWrite p pl s
  | .profileRead p pl => Sys2Proof.Machine.execProfileRead p pl s
  | .profileCommit p pl => Sys2Proof.Machine.execProfileCommit p pl s
  | .profileAbandon p pl => Sys2Proof.Machine.execProfileAbandon p pl s
  | .restart p pl => Sys2Proof.Machine.execRestart p pl s
  | .speedRamp p pl => Sys2Proof.Machine.execSpeedRamp p pl s
  | .impressionOn p pl => Sys2Proof.Machine.execImpressionOn p pl s
  | .impressionOff p pl => Sys2Proof.Machine.execImpressionOff p pl s
  | .solventCharge p pl => Sys2Proof.Machine.execSolventCharge p pl s
  | .jobTag p pl => Sys2Proof.Machine.execJobTag p pl s
  | .detectorSet p pl => Sys2Proof.Machine.execDetectorSet p pl s
  | .breakClear p pl => Sys2Proof.Machine.execBreakClear p pl s
  | .safeClear p pl => Sys2Proof.Machine.execSafeClear p pl s
  | .zoneReport p pl => Sys2Proof.Machine.execZoneReport p pl s
  | .zoneSetpoint p pl => Sys2Proof.Machine.execZoneSetpoint p pl s
  | .exhaustTarget p pl => Sys2Proof.Machine.execExhaustTarget p pl s
  | .purgeStart p pl => Sys2Proof.Machine.execPurgeStart p pl s
  | .coolDown p pl => Sys2Proof.Machine.execCoolDown p pl s
  | .chillReport p pl => Sys2Proof.Machine.execChillReport p pl s
  | .chillSetpoint p pl => Sys2Proof.Machine.execChillSetpoint p pl s
  | .byteReceived p rx => Sys2Proof.Machine.execByteReceived p rx s

end Sys2Proof.Machine
end

