-- ==== Sys2Proof/Machine/Step.lean ====
section
/-! DEFINITION. The step: the command at the front of the queue; on an empty queue an expiry that is
due, or one microsecond (log 2). -/
namespace Sys2Proof.Machine

/-- The expiry taken among several that are due: the free value picks it (log 3). -/
def pickDue (n : Nat) (c : Instr) (cs : List Instr) : Instr :=
  (c :: cs).getD (Config.dueChoice n % (cs.length + 1)) c

/-- A step with nothing waiting (log 2). -/
def idleStep (s : State) : Host.Outcome State Fault Refusal :=
  match dueCommands s with
  | [] => .next (tick s)
  | [c] => exec c s
  | c :: d :: cs => exec (pickDue s.freeCount c (d :: cs)) { s with freeCount := s.freeCount + 1 }

/-- One step: the command at the front of the queue, run on the state with the queue's rest. -/
def step (s : State) : Host.Outcome State Fault Refusal :=
  match s.pending with
  | c :: rest => exec c (s.setPending rest)
  | [] => idleStep s

/-- `s` with the command a word spells at the front of its queue; no word spells one (log 24). -/
def State.withFetchWord (s : State) (nbits w : Nat) : State :=
  match decodeTableWord nbits w with
  | some c => s.setPending (c :: s.pending)
  | none => s

end Sys2Proof.Machine
end

