-- ==== Sys2Proof/Safety.lean ====
section
/-! DEFINITION. The vocabulary of the statements: what a step leaves alone, runs of commands, and the
invariants of the machine. -/
namespace Sys2Proof.Machine

/-! ### Steps that answer a state -/

/-- A step from `s` answers a next state: it neither faults nor is refused. -/
def Safe (s : State) : Prop := ∃ t, step s = .next t

/-- The commands of a list, one after another. -/
def execAll : List Instr → State → Host.Outcome State Fault Refusal
  | [], s => .next s
  | c :: cs, s =>
    match exec c s with
    | .next t => execAll cs t
    | .fault f => .fault f
    | .refused r => .refused r

/-- The bytes of a list arriving on port `p`, one after another. -/
def bytesOn (p : Port) (bytes : List Byte) : List Instr :=
  bytes.map (fun b => .byteReceived p (.data b))

/-! ### What is left alone -/

/-- A port without its notice part: receiver, replies, liveness, loss action, map, mode and
WATERMARK. -/
def PortState.link (q : PortState) : PortState :=
  { q with pendingSet := 0, holding := 0, note := false, pulse := none }

/-- Nothing differs but the pending sets, the conditions held and the NOTE lines. -/
abbrev NoticesOnly (s t : State) : Prop :=
  t.time = s.time ∧ t.motion = s.motion ∧ t.ring = s.ring ∧ t.load = s.load ∧ t.pwm = s.pwm ∧
    t.env = s.env ∧ t.line = s.line ∧ t.brk = s.brk ∧ t.arb = s.arb ∧ t.log = s.log ∧
    t.prof = s.prof ∧ t.pending = s.pending ∧ t.freeCount = s.freeCount ∧
    ∀ q, (t.port q).link = (s.port q).link

/-- Nothing differs but the log and the notices. -/
abbrev LogOnly (s t : State) : Prop :=
  t.time = s.time ∧ t.motion = s.motion ∧ t.ring = s.ring ∧ t.load = s.load ∧ t.pwm = s.pwm ∧
    t.env = s.env ∧ t.line = s.line ∧ t.brk = s.brk ∧ t.arb = s.arb ∧
    t.prof = s.prof ∧ t.pending = s.pending ∧ t.freeCount = s.freeCount ∧
    ∀ q, (t.port q).link = (s.port q).link

/-- Nothing differs but the envelope unit and the notices. -/
abbrev EnvelopeOnly (s t : State) : Prop :=
  t.time = s.time ∧ t.motion = s.motion ∧ t.ring = s.ring ∧ t.load = s.load ∧ t.pwm = s.pwm ∧
    t.line = s.line ∧ t.brk = s.brk ∧ t.arb = s.arb ∧ t.log = s.log ∧
    t.prof = s.prof ∧ t.pending = s.pending ∧ t.freeCount = s.freeCount ∧
    ∀ q, (t.port q).link = (s.port q).link

/-- Nothing differs but the arbiter and the notices. -/
abbrev ArbiterOnly (s t : State) : Prop :=
  t.time = s.time ∧ t.motion = s.motion ∧ t.ring = s.ring ∧ t.load = s.load ∧ t.pwm = s.pwm ∧
    t.env = s.env ∧ t.line = s.line ∧ t.brk = s.brk ∧ t.log = s.log ∧
    t.prof = s.prof ∧ t.pending = s.pending ∧ t.freeCount = s.freeCount ∧
    ∀ q, (t.port q).link = (s.port q).link

/-- What a phase change and an arbitration pass leave alone: the time base, the motion unit, the
ring, the loads, the PWM stage, the detectors, the profile, the queue, and of a port all but its
notices. -/
abbrev KeepsPlant (s t : State) : Prop :=
  t.time = s.time ∧ t.motion = s.motion ∧ t.ring = s.ring ∧
    t.load.flow = s.load.flow ∧ t.load.loads = s.load.loads ∧ t.load.peak = s.load.peak ∧
    t.load.peakZone = s.load.peakZone ∧ t.load.tripCount = s.load.tripCount ∧
    t.load.fReq = s.load.fReq ∧ t.load.baseDuty = s.load.baseDuty ∧ t.pwm = s.pwm ∧
    t.brk.dets = s.brk.dets ∧ t.prof = s.prof ∧ t.pending = s.pending ∧
    t.freeCount = s.freeCount ∧ ∀ q, (t.port q).link = (s.port q).link

/-! ### Readings -/

/-- The value of a ceiling component, none where it is not applied. -/
def Components.value (c : Components) : Limiter → Option Nat
  | .max => c.max
  | .phase => c.phase
  | .fill => c.fill
  | .vapour => c.vapour
  | .chill => c.chill
  | .port => c.port

/-- The command takes a step from `s`: a forward pulse that completes a segment with no debt, or an
expiry of the running dwell timer (R11, R34, R39). -/
def TakesStep (pr : Profile) (c : Instr) (s : State) : Prop :=
  (c = .forwardPulse ∧ s.motion.d = 0 ∧ pr.pulsesPerSeg ≤ s.motion.p + 1) ∨
    (c = .dwellTimerExpiry ∧ s.motion.dwellTimer.isSome)

/-- The zone loads are those R46 gives for the release sums and the step time the ring publishes and
the flow held. -/
def LoadsAgree (pr : Profile) (s : State) : Prop :=
  let cLim := pr.lelConc * pr.safeFraction / 100
  let t := s.ring.lastT
  ∀ (z : Nat) (e : ZoneItems) (r : Nat),
    pr.dryers[z]? = some e → s.ring.release[z]? = some r →
      let fz := s.load.flow * e.share / 256
      (r = 0 → s.load.loads[z]? = some 0) ∧
      (0 < r → fz = 0 → s.load.loads[z]? = some 4000) ∧
      (0 < r → 0 < fz →
        s.load.loads[z]? =
          some (min 4000 ((r * 1000000000 + t * fz * cLim - 1) / (t * fz * cLim))))

/-- Peak, peak zone, exhaust demand and base duty are those R47, R52 and R53 give for the zone
loads. -/
def DemandAgrees (pr : Profile) (s : State) : Prop :=
  (∀ l ∈ s.load.loads, l ≤ s.load.peak) ∧
    (s.load.loads ≠ [] →
      s.load.loads[s.load.peakZone]? = some s.load.peak ∧
        ∀ z < s.load.peakZone, s.load.loads[z]? ≠ some s.load.peak) ∧
    (s.load.loads = [] → s.load.peak = 0 ∧ s.load.peakZone = 0) ∧
    s.load.fReq =
      min 65535 ((s.load.flow * s.load.peak + pr.loadTarget - 1) / pr.loadTarget) ∧
    s.load.baseDuty = min 256 ((s.load.fReq * 256 + pr.flowFull - 1) / pr.flowFull)

/-- `t` is what a change of `key` taken at once at `v` makes of `u` (R127, R128): no change of this key
stands; one that stood ended CANCELLED, with CHANGE_DONE at its owner; where nothing else waits, the record
holds `v` and the other records stay. -/
def TakenAtOnce (key : ChangeKey) (v : Int) (u t : State) : Prop :=
  (∀ e ∈ t.arb.list, e.key ≠ key) ∧ (∀ c, t.arb.inFlight = some c → c.key ≠ key) ∧
    ((∃ e ∈ u.arb.list, e.key = key) ∨ (∃ c, u.arb.inFlight = some c ∧ c.key = key) →
      (∃ o, t.arb.outcomes.get (keyOwner key) = some o ∧ o.key = key ∧ o.reason = .cancelled) ∧
        Notice.changeDone.inSet (t.port (keyOwner key)).pendingSet = true) ∧
    ((∀ e ∈ u.arb.list, e.key = key) →
      t.arb.list = [] ∧ t.line.speedGrant = (u.line.putRecord key v).speedGrant ∧
        t.line.exhaust = (u.line.putRecord key v).exhaust ∧
        t.line.setpoints = (u.line.putRecord key v).setpoints) ∧
    KeepsPlant u t

/-- Port `p` with the answer to a change admitted at `v` (R129 to R132): REFUSED_FULL where the list has
no room, else the admission's reply, CLAMPED where a clamp changed a value. -/
def admissionAnswer (p : Port) (kind : Byte) (pr : Profile) (key : ChangeKey) (v : Int)
    (clamped : Bool) (rate : List Byte) (u : State) : State :=
  match placeChange pr key v u with
  | none => answer p kind [0x15] u
  | some a =>
    answer p kind
      (changeReply (if clamped then .clamped else a.result) v a.arrival a.disposition rate) a.state

/-- The part of the machine that RESET and the requests write, the queue and the model's counter left
out, is the one after a reset that ended with `lines` on the inputs. -/
def IsReset (lines : InputLines) (t : State) : Prop :=
  { t with pending := [], freeCount := 0 } = State.afterReset lines

/-! ### Zones, the chill trial (R3, R62) -/

/-- The zones of a table: the used entries are those before the first NONE entry, the DRYER entries come
first among them and the others are the CHILL entries; each zone's run begins after the run before it, and
the ring has one place per position of these runs (R3). -/
def ZoneRuns (pr : Profile) : Prop :=
  (∀ (z : Nat) (e : ZoneItems), pr.used[z]? = some e → pr.zones[z]? = some e ∧ e.kind ≠ .none) ∧
    (∀ e, pr.zones[pr.used.length]? = some e → e.kind = .none) ∧
    (∀ (z : Nat) (e : ZoneItems), pr.dryers[z]? = some e → pr.used[z]? = some e ∧ e.kind = .dryer) ∧
    (∀ e, pr.used[pr.dryers.length]? = some e → e.kind ≠ .dryer) ∧
    (∀ c : Nat, pr.chills[c]? = pr.used[pr.dryers.length + c]?) ∧
    pr.zoneStart 0 = 0 ∧
    (∀ (z : Nat) (e : ZoneItems), pr.used[z]? = some e →
      pr.zoneStart (z + 1) = pr.zoneStart z + e.span ∧
      ∀ q, pr.zoneStart z ≤ q → q < pr.zoneStart z + e.span →
        pr.places[q]? = some { zone := z, entry := e }) ∧
    pr.zoneStart pr.dryers.length = pr.dryerLength ∧
    pr.zoneStart pr.used.length = pr.ringLength ∧ pr.places.length = pr.ringLength

/-- What the chill trial computes (R62): one application of R13 per position of a CHILL zone, zone after zone,
each CHILL zone with the temperature its input holds. -/
def ChillTrialRule (pr : Profile) : Prop :=
  (∀ t x, chillTrial pr [] t x = x) ∧
    (∀ (r : Roll) rolls t x, r.entry.span = 0 →
      chillTrial pr (r :: rolls) t x = chillTrial pr rolls t x) ∧
    (∀ (e : ZoneItems) (n : Nat) (a x : Int) (rolls : List Roll) (t : Nat),
      let k := min 256 (e.kHeat * t / pr.tRef)
      chillTrial pr ({ entry := { e with span := n + 1 }, temp := a } :: rolls) t x =
        chillTrial pr ({ entry := { e with span := n }, temp := a } :: rolls) t
          (x + Int.tdiv ((a - x) * k) 256)) ∧
    ∀ inputs : List Int,
      (rollsOf pr inputs).length = min pr.chills.length (inputs.length - pr.dryers.length) ∧
      ∀ (c : Nat) e a, pr.chills[c]? = some e → inputs[pr.dryers.length + c]? = some a →
        (rollsOf pr inputs)[c]? = some { entry := e, temp := a }

/-! ### Level conditions, the drain, the ends of changes -/

/-- Level kind `k`'s condition is `b` at every port after a step from `s` to `t`; where it begins to hold
the kind becomes pending, and where it ceases the kind stays pending if it was (R177). -/
def LevelBecomes (k : Notice) (b : Bool) (s t : State) : Prop :=
  ∀ p, k.inSet (t.port p).holding = b ∧
    k.inSet (t.port p).pendingSet =
      (k.inSet (s.port p).pendingSet || (b && !k.inSet (s.port p).holding))

/-- PRINTING ended by `cause` with no PRINTED record in the ring: the drain ends at once, in READY where
the ready test holds and in HEATING where it fails (R92, R93); the two PHASE records follow what the log
held in `b`. -/
def DrainEndsAtOnce (cause : Cause) (s b t : State) : Prop :=
  let new : Phase := if s.isReady then .ready else .heating
  t.line.phase = new ∧ t.line.cause = .drainDone ∧
    t.line.ready = (if s.isReady then .holds else .fails) ∧
    t.line.permit = s.isReady ∧ t.line.heatInhibit = false ∧
    t.line.drain = 0 ∧ t.line.fill = 0 ∧ t.line.run = none ∧ t.line.mark = s.line.mark ∧
    t.log =
      (logAppend (.phase .draining new .drainDone s.motion.vMeas)
        (logAppend (.phase .printing .draining cause s.motion.vMeas) b)).log

/-- The outcomes an abort stores (R146): a port's last ABORTED end is its last entry in the list, with the
value admitted, or where it has none its change in flight, with the value granted; a port with neither keeps
its outcome. -/
def AbortedOutcomes (u t : State) : Prop :=
  ∀ p,
    (∀ (i : Nat) (e : PendingEntry), u.arb.list[i]? = some e → keyOwner e.key = p →
      (∀ (j : Nat) (x : PendingEntry), u.arb.list[j]? = some x → keyOwner x.key = p → j ≤ i) →
        t.arb.outcomes.get p =
          some { key := e.key, arrival := e.arrival, value := e.value, reason := .aborted }) ∧
    ((∀ e ∈ u.arb.list, keyOwner e.key ≠ p) →
      (∀ c, u.arb.inFlight = some c → keyOwner c.key = p →
        t.arb.outcomes.get p =
          some { key := c.key, arrival := c.arrival, value := c.granted, reason := .aborted }) ∧
      ((∀ c, u.arb.inFlight = some c → keyOwner c.key ≠ p) →
        t.arb.outcomes.get p = u.arb.outcomes.get p))

/-- An abort raises CHANGE_DONE at every port that had a change standing (R146). -/
def AbortNoticed (u t : State) : Prop :=
  ∀ p, (∃ e ∈ u.arb.list, keyOwner e.key = p) ∨
      (∃ c, u.arb.inFlight = some c ∧ keyOwner c.key = p) →
    Notice.changeDone.inSet (t.port p).pendingSet = true

/-- The change in flight `c` of `u` observed through a step to `t`: not at all, out of tolerance, or in it
(R140); at SETTLE_COUNT it ends SETTLED with the value granted. -/
def Observed (pr : Profile) (seen : Option Bool) (c : InFlight) (u t : State) : Prop :=
  (seen = none → t.arb = u.arb) ∧
    (seen = some false → t.arb = { u.arb with settleCount := 0 }) ∧
    (seen = some true → u.arb.settleCount + 1 < pr.settleCount →
      t.arb = { u.arb with settleCount := min 255 (u.arb.settleCount + 1) }) ∧
    (seen = some true → pr.settleCount ≤ u.arb.settleCount + 1 →
      t.arb.outcomes.get (keyOwner c.key) =
          some { key := c.key, arrival := c.arrival, value := c.granted, reason := .settled } ∧
        Notice.changeDone.inSet (t.port (keyOwner c.key)).pendingSet = true)

/-! ### The item table as R190 prints it -/

/-- An item's range and default (R190). -/
structure ItemSpec where
  lo : Int
  hi : Int
  value : Int
deriving DecidableEq, Repr

/-- Items 0x01 to 0x14, in order of id (R190). -/
def firstItems : List ItemSpec :=
  [⟨100, 2000, 500⟩, ⟨1, 4096, 250⟩, ⟨1000, 1000000, 50000⟩, ⟨50, 5000, 500⟩, ⟨100, 10000, 1000⟩,
   ⟨-400, 600, 250⟩, ⟨0, 3000, 1100⟩, ⟨1, 500, 48⟩, ⟨1, 50, 25⟩, ⟨1, 4000, 500⟩,
   ⟨1, 4000, 600⟩, ⟨1, 4000, 800⟩, ⟨1, 4000, 1000⟩, ⟨1, 255, 20⟩, ⟨0, 65535, 150⟩,
   ⟨0, 3500, 320⟩, ⟨0, 3500, 1700⟩, ⟨0, 3500, 800⟩, ⟨1, 65535, 300⟩, ⟨1, 65535, 500⟩]

/-- Items 0x15 to 0x28, in order of id (R190). -/
def secondItems : List ItemSpec :=
  [⟨1, 65535, 2000⟩, ⟨1, 65535, 12000⟩, ⟨1, 65535, 1000⟩, ⟨1, 65535, 3000⟩, ⟨0, 65535, 50⟩,
   ⟨1, 255, 8⟩, ⟨100, 60000, 10000⟩, ⟨1000, 600000, 30000⟩, ⟨100, 30000, 3000⟩,
   ⟨1000, 120000, 10000⟩, ⟨1, 65535, 4000⟩, ⟨0, 65535, 1200⟩, ⟨0, 65535, 100⟩, ⟨0, 256, 64⟩,
   ⟨0, 256, 0⟩, ⟨0, 256, 200⟩, ⟨10, 65535, 2000⟩, ⟨1, 10000000, 200000⟩, ⟨-400, 3500, 250⟩,
   ⟨0, 240, 40⟩]

/-- The defaults of zones 0 to 7, field by field (R190). -/
def zoneDefaults : List (List Int) :=
  [[1, 12, 40, 30, 80, 1200, 2200, 50], [1, 12, 40, 30, 80, 1200, 2200, 50],
   [1, 12, 40, 30, 64, 1200, 2200, 50], [1, 8, 40, 30, 32, 1200, 2200, 50],
   [2, 6, 60, 0, 0, 120, 300, 20], [2, 6, 60, 0, 0, 120, 300, 20],
   [0, 0, 0, 0, 0, 0, 0, 1], [0, 0, 0, 0, 0, 0, 0, 1]]

/-- The ranges of a zone's fields 0 to 7 (R190). -/
def zoneRanges : List (Int × Int) :=
  [(0, 2), (0, 128), (0, 256), (0, 256), (0, 256), (-400, 3500), (-400, 3500), (1, 500)]

/-- Item `id` as R190 prints it; none where the table names no item. -/
def itemSpec (id : Nat) : Option ItemSpec :=
  if id = 0 then none
  else if id < 0x40 then (firstItems ++ secondItems)[id - 1]?
  else if id < 0x80 then
    match zoneRanges[(id - 0x40) % 8]?, (zoneDefaults.getD ((id - 0x40) / 8) [])[(id - 0x40) % 8]? with
    | some r, some v => some ⟨r.1, r.2, v⟩
    | _, _ => none
  else if id < 0x90 then
    match (id - 0x80) % 4 with
    | 0 => some ⟨0, 127, [0, 43, 55, 55].getD ((id - 0x80) / 4) 0⟩
    | 1 => some ⟨0, 1, 0⟩
    | 2 => some ⟨0, 1, 1⟩
    | _ => none
  else if id < 0x9C then
    match (id - 0x90) % 4 with
    | 0 => some ⟨0, 7, [4, 6, 5].getD ((id - 0x90) / 4) 0⟩
    | 1 => some ⟨20, 5000, 500⟩
    | 2 => some ⟨1, 240, 32⟩
    | _ => none
  else none

/-- The values of items 0x01 to 0x28 of a table, in order of id (R190). -/
def plainValues (x : Profile) : List Int :=
  [(x.segLength : Int), x.pulsesPerSeg, x.tRef, x.stallLimit, x.dwellInterval, x.ambient, x.releaseTemp,
   x.lelConc, x.safeFraction, x.loadTarget, x.loadWarn, x.loadHold, x.loadTrip, x.tripGrace,
   x.wetLimit, x.setLimit, x.blisterLimit, x.idleTemp, x.crawlLimit, x.printMin] ++
  [(x.fillSpeed : Int), x.speedMax, x.rampStep, x.rampRateMax, x.speedTol, x.settleCount,
   x.settleLimit, x.pendingLimit, x.excessGrace, x.stallGrace, x.flowFull, x.flowReady, x.flowTol,
   x.dutyMin, x.dutyCold, x.purgeDuty, x.purgeFlow, x.purgeVolume, x.chillReady, x.postBreak]

/-- The values of a zone's fields 0 to 7 (R190). -/
def zoneValues (e : ZoneItems) : List Int :=
  [match e.kind with
    | .none => 0
    | .dryer => 1
    | .chill => 2,
   e.span, e.kHeat, e.kRelease, e.share, e.setMin, e.setMax, e.tol]

/-- The values of a detector's fields 0 to 2 (R190). -/
def detectorValues (d : DetectorItems) : List Int :=
  [d.position, if d.polarity = .activeHigh then 1 else 0, if d.armed then 1 else 0]

/-- The values of a port's fields 0 to 2 (R190). -/
def portValues (q : PortItems) : List Int := [q.priority, q.window, q.watermark]

/-- Table `x` gives its items the values of the fields R190 names (ids 0x40 + 8z + f, 0x80 + 4d + f,
0x90 + 4p + f). -/
def ItemsName (x : Profile) : Prop :=
  (∀ i v, (plainValues x)[i]? = some v → x.item (i + 1) = some v) ∧
    (∀ z f e v, x.zones[z]? = some e → (zoneValues e)[f]? = some v →
      x.item (0x40 + 8 * z + f) = some v) ∧
    (∀ d f v, (detectorValues (x.detectors.get d))[f]? = some v →
      x.item (0x80 + 4 * detectorNumber d + f) = some v) ∧
    ∀ p f v, (portValues (x.ports.get p))[f]? = some v →
      x.item (0x90 + 4 * (portCode p - 1) + f) = some v

/-- The checks R194 gives item `id` of a table; an item it does not list passes. -/
def ItemPasses (x : Profile) (id : Nat) : Prop :=
  (id = 0x08 → 1 ≤ x.lelConc * x.safeFraction / 100) ∧
    (id = 0x0B → x.loadTarget ≤ x.loadWarn) ∧ (id = 0x0C → x.loadWarn ≤ x.loadHold) ∧
    (id = 0x0D → x.loadHold ≤ x.loadTrip) ∧ (id = 0x14 → x.crawlLimit < x.printMin) ∧
    (id = 0x15 → x.printMin ≤ x.fillSpeed) ∧ (id = 0x16 → x.fillSpeed ≤ x.speedMax) ∧
    (∀ z e, x.zones[z]? = some e →
      let before := x.zones.take z
      let chills := before.countP (fun b => b.kind == .chill)
      (id = 0x40 + 8 * z →
        (z = 0 → e.kind = .dryer) ∧
        (∀ b, 0 < z → x.zones[z - 1]? = some b →
          (b.kind = .none → e.kind = .none) ∧ (b.kind = .chill → e.kind ≠ .dryer)) ∧
        (e.kind = .chill → 0 < z → chills < 3) ∧
        (e.kind = .none → (∀ b ∈ before, b.kind ≠ .none) → 0 < chills) ∧
        (z = 7 → (∀ b ∈ x.zones, b.kind ≠ .none) → 0 < chills ∨ e.kind = .chill)) ∧
      (id = 0x41 + 8 * z → e.kind ≠ .none →
        1 ≤ e.span ∧
          (((x.zones.take (z + 1)).filter (fun b => b.kind != .none)).map (·.span)).sum ≤ 128) ∧
      (id = 0x44 + 8 * z → e.kind = .dryer → (∀ b ∈ x.zones.drop (z + 1), b.kind ≠ .dryer) →
        let shares := ((x.zones.filter (fun b => b.kind == .dryer)).map (·.share)).sum
        1 ≤ shares ∧ shares ≤ 256) ∧
      (id = 0x46 + 8 * z → e.kind ≠ .none → e.setMin ≤ e.setMax)) ∧
    ∀ d, id = 0x80 + 4 * detectorNumber d → (x.detectors.get d).position < x.ringLength

/-! ### Layouts (R183, R186 to R189) -/

/-- The low `k` bytes of a number, most significant first (R183). -/
def be : Nat → Nat → List Byte
  | 0, _ => []
  | k + 1, n => BitVec.ofNat 8 (n / 256 ^ k) :: be k n

/-- A signed value as a two-byte field, two's complement (R183). -/
def beInt (v : Int) : List Byte := be 2 (v % 65536).toNat

/-- A temperature that may be absent (R183). -/
def beTemp : Option Int → List Byte
  | some v => beInt v
  | none => [0x80, 0x00]

/-- A one-byte position or zone that may be absent (R183). -/
def bePlace : Option Nat → List Byte
  | some n => be 1 n
  | none => [0xFF]

/-- The value of flag bit `i` where `b` is set. -/
def flag (b : Bool) (i : Nat) : Nat := if b then 2 ^ i else 0

/-- The code values of R186. -/
def CodesOfFields : Prop :=
  [Result.ok, .clamped, .queued, .held].map Result.code = [0x00, 0x01, 0x02, 0x03] ∧
    [Result.refusedPhase, .refusedState, .refusedRange, .refusedPort, .refusedBusy, .refusedFull,
      .refusedLocked, .badFrame, .unknownKind].map Result.code =
      [0x10, 0x11, 0x12, 0x13, 0x14, 0x15, 0x16, 0x20, 0x21] ∧
    [none, some Port.line, some .dryer, some .chill].map optPortCode = [0, 1, 2, 3] ∧
    [Port.line, .dryer, .chill].map portCode = [1, 2, 3] ∧
    [Phase.unconfigured, .cold, .purge, .heating, .ready, .printing, .draining, .webBreak,
      .safe].map Phase.code = List.range 9 ∧
    [Cause.none, .commit, .purgeStart, .purgeDone, .readyMet, .readyLost, .impressionOn,
      .impressionOff, .runEnd, .stall, .excess, .lineLost, .drainDone, .coolDown, .webBreak,
      .breakClear, .estop, .loadTrip, .portLoss, .safeClear].map Cause.code = List.range 20 ∧
    [Limiter.max, .phase, .fill, .vapour, .chill, .port].map Limiter.code = List.range 6 ∧
    (∀ z, [ChangeKey.speed, .exhaust, .zone z, .chill z].map keyKindCode = [1, 2, 3, 4] ∧
      [ChangeKey.speed, .exhaust, .zone z, .chill z].map keyZone = [none, none, some z, some z]) ∧
    [EndReason.settled, .timedOut, .cancelled, .noHeadroom, .portLost, .aborted].map
      EndReason.code = [1, 2, 3, 4, 5, 6] ∧
    [Disposition.atOnce, .waiting, .held, .granted, .inFlight, .notAdmitted].map
      Disposition.code = List.range 6 ∧
    [Liveness.quiet, .active, .lost].map Liveness.code = [0, 1, 2] ∧
    [LossAction.note, .limit, .safe].map LossAction.code = [0, 1, 2] ∧
    (∀ r, [Freeze.opened, .armed r, .frozen].map Freeze.code = [0, 1, 2] ∧
      [Freeze.opened, .armed r, .frozen].map Freeze.remainder = [0, r, 0]) ∧
    [ProfileCode.none, .staged, .valid, .invalid].map ProfileCode.code = [0, 1, 2, 3] ∧
    [SegKind.printed, .blank, .void].map SegKind.code = [1, 2, 3] ∧
    [Notice.phase, .ceilingDrop, .changeDone, .logSkip, .webBreak, .portLost, .runMark, .exitFlag,
      .excess, .zoneHigh, .logFrozen, .loadWarn, .loadTrip, .logWatermark, .stall,
      .underchill].map Notice.mask = (List.range 16).map (fun i => BitVec.ofNat 16 (2 ^ i))

/-- The 12 bytes of a segment record (R188). -/
def segmentLayout (r : SegRecord) : List Byte :=
  be 2 r.seq.toNat ++ be 1 r.kind.code ++ be 1 (flag r.stranded 0 + flag r.tag.isSome 4) ++
    be 2 r.solvent ++ beTemp (r.heat.map (·.temp)) ++ beTemp (r.heat.map (·.peak)) ++
    be 2 (r.tag.getD 0)

/-- Bytes 0 to 12 of a log record (R187). -/
def logLayout : LogBody → List Byte
  | .exit kind f seq residual temp peak tag =>
    be 1 1 ++ be 1 kind.code ++
      be 1 (flag f.stranded 0 + flag f.wet 1 + flag f.underchilled 2 + flag f.overheated 3 +
        flag tag.isSome 4) ++
      be 2 seq.toNat ++ be 2 residual ++ beInt temp ++ beInt peak ++ be 2 (tag.getD 0)
  | .phase old new cause v =>
    be 1 2 ++ be 1 1 ++ be 1 old.code ++ be 1 new.code ++ be 1 cause.code ++ be 2 v ++ be 6 0
  | .webBreak d position voided upstream =>
    be 1 2 ++ be 1 2 ++ be 1 (detectorNumber d) ++ be 1 position ++ be 1 voided ++
      be 1 (flag upstream 0) ++ be 7 0
  | .runMark mark => be 1 2 ++ be 1 3 ++ be 2 mark ++ be 9 0
  | .filled v => be 1 2 ++ be 1 4 ++ be 2 v ++ be 9 0
  | .trip zone peak => be 1 2 ++ be 1 5 ++ be 1 zone ++ be 2 peak ++ be 8 0
  | .port p back action =>
    be 1 2 ++ be 1 6 ++ be 1 (portCode p) ++ be 1 (flag back 0) ++ be 1 action.code ++ be 8 0
  | .profile p n ph =>
    be 1 2 ++ be 1 7 ++ be 1 (portCode p) ++ be 1 n ++ be 1 ph.code ++ be 8 0
  | .released p drops => be 1 2 ++ be 1 8 ++ be 1 (portCode p) ++ be 2 drops ++ be 8 0
  | .restart p held drops =>
    be 1 2 ++ be 1 9 ++ be 1 (portCode p) ++ be 1 held ++ be 2 drops ++ be 7 0

/-- The 26 bytes of ZONE_READ's reply after its code, for zone `z` with entry `e` (R27, R183, R185). -/
def zoneLayout (pr : Profile) (s : State) (z : Nat) (e : ZoneItems) : List Byte :=
  let dryer : Nat := if e.kind = .dryer then 1 else 0
  be 1 (zoneKindCode e.kind) ++ be 1 e.span ++ be 1 (pr.zoneStart z) ++
    be 1 (pr.zoneStart z + e.span - 1) ++ be 2 e.kHeat ++ be 2 (dryer * e.kRelease) ++
    be 2 (dryer * e.share) ++ beInt e.setMin ++ beInt e.setMax ++ be 2 e.tol ++
    beInt (s.ring.inputs.getD z 0) ++ be 4 (dryer * s.ring.release.getD z 0) ++
    beInt (s.line.setpoints.getD z 0) ++ beInt (dryer * s.env.heatCaps.getD z 0)
where
  /-- A zone kind's number (R190). -/
  zoneKindCode : ZoneKind → Nat
    | .none => 0
    | .dryer => 1
    | .chill => 2

/-- The two bytes of a detector in the status payload (R124, R189); with no profile its POSITION is absent
and its signal not formed (R109, R110). -/
def detectorLayout (e : DetectorEntry) : List Byte :=
  match e.cfg with
  | none => [0xFF] ++ be 1 (flag e.armed 1 + flag e.latch 3)
  | some c =>
    let high := decide (c.polarity = .activeHigh)
    be 1 c.position ++
      be 1 (flag high 0 + flag e.armed 1 + flag (high == (e.level == .high)) 2 + flag e.latch 3)

/-- The 87 bytes of the status payload for port `p` (R189). -/
def statusLayout (p : Port) (s : State) : List Byte :=
  -- 0 to 19
  [0x00] ++ be 1 s.line.phase.code ++ be 1 s.line.cause.code ++
    be 1 (flag (s.line.ready == .holds) 0 + flag s.line.heatInhibit 1 + flag s.line.permit 2 +
      flag s.line.estopActive 3 + flag (s.motion.state == .moving) 4 + flag s.env.underchill 5 +
      flag (s.line.run.any (·.repeats)) 6 + flag s.prof.committed.isSome 7) ++
    be 3 s.time.ms.toNat ++ be 4 s.motion.tStep ++ be 2 s.motion.vMeas ++ be 2 s.env.ceiling ++
    be 1 s.env.limiter.code ++ beTemp s.env.tIn ++ beTemp s.env.predicted ++
  -- 20 to 45
    be 2 s.line.speedGrant ++ be 2 s.line.exhaust ++ be 2 s.load.flow ++ be 2 s.load.fReq ++
    be 2 s.load.peak ++ be 1 s.load.peakZone ++ be 1 s.load.tripCount ++ be 2 s.load.baseDuty ++
    be 2 s.load.floorDuty ++ be 3 s.line.purgeVolume ++ be 1 s.line.fill ++ be 1 s.line.drain ++
    be 3 ((s.line.run.map (·.current)).getD 0) ++ be 2 s.line.mark ++
  -- 46 to 60
    detectorLayout (s.det .brk0) ++ detectorLayout (s.det .brk1) ++
    detectorLayout (s.det .brk2) ++ detectorLayout (s.det .brk3) ++ bePlace s.brk.pb ++
    be 1 (s.port .line).live.code ++ be 1 (s.port .dryer).live.code ++
    be 1 (s.port .chill).live.code ++ be 1 ((s.port p).action.code + flag (s.port p).lock 7) ++
    be 1 s.prof.code.code ++ be 1 (optPortCode s.prof.holder) ++
  -- 61 to 79
    (match s.arb.inFlight with
      | none => [0x00, 0x00, 0xFF] ++ be 6 0
      | some c =>
        be 1 (portCode (keyOwner c.key)) ++ be 1 (keyKindCode c.key) ++ bePlace (keyZone c.key) ++
          be 2 c.arrival.toNat ++ beInt c.value ++ beInt c.granted) ++
    be 1 s.arb.settleCount ++ be 1 s.arb.list.length ++
    be 1 (s.arb.list.countP (fun e => e.status == .held)) ++
    (match s.arb.outcomes.get p with
      | none => [0x00, 0x00, 0xFF] ++ be 4 0
      | some o =>
        be 1 o.reason.code ++ be 1 (keyKindCode o.key) ++ bePlace (keyZone o.key) ++
          be 2 o.arrival.toNat ++ beInt o.value) ++
  -- 80 to 86
    be 1 s.log.records.length ++ be 1 (s.log.unread.get p) ++ be 1 (s.log.skip.get p) ++
    be 1 s.log.freeze.code ++ be 1 s.log.freeze.remainder ++ be 2 s.log.drops

/-! ### Invariants -/

/-- HEAT_INHIBIT and PERMIT follow the phase (R82, R83). -/
def LinesFollowPhase (s : State) : Prop :=
  s.line.heatInhibit = !s.line.phase.heated ∧
    s.line.permit = (s.line.phase == .ready || s.line.phase == .printing)

/-- The counts are 0 or absent outside their phases (R81), the purge timer runs and the volume is
counted in PURGE alone (R58), and p_b is present exactly in BREAK (R116). -/
def CountsFollowPhase (s : State) : Prop :=
  (s.line.phase ≠ .printing → s.line.fill = 0 ∧ s.line.run = none) ∧
    (s.line.phase ≠ .draining → s.line.drain = 0) ∧
    (s.line.phase ≠ .purge → s.line.purgeTimer = none ∧ s.line.purgeVolume = 0) ∧
    (s.brk.pb.isSome ↔ s.line.phase = .webBreak)

/-- The floor duty is 256 in UNCONFIGURED, BREAK and SAFE (R54). -/
def DutyForced (s : State) : Prop :=
  (s.line.phase = .unconfigured ∨ s.line.phase = .webBreak ∨ s.line.phase = .safe) →
    s.load.floorDuty = 256

/-- The envelope is the one a recomputation would give (R70). -/
def EnvelopeCurrent (s : State) : Prop := s.env = envelopeOf s

/-- The floor duty is the one R54 gives for the state (R55). -/
def DutyCurrent (s : State) : Prop := s.load.floorDuty = floorDuty s

/-- The log holds at most 240 records, and no port has more unread than are held (R151, R153). -/
def LogBounded (s : State) : Prop :=
  s.log.records.length ≤ Config.logCapacity ∧ ∀ p, s.log.unread.get p ≤ s.log.records.length

/-- The pending list holds at most 8 entries (R134). -/
def PendingBounded (s : State) : Prop := s.arb.list.length ≤ Config.pendingCapacity

/-- In LATCHED mode a port's NOTE line is asserted exactly while a kind of its map is pending
(R180). -/
def NoteFollowsPending (s : State) : Prop :=
  ∀ p, (s.port p).mode = .latched →
    (s.port p).note = ((s.port p).pendingSet &&& (s.port p).map != 0)

/-- The records from the youngest to the oldest have sequence numbers falling by one, the youngest
one below `next` (R8). -/
def SeqFrom : Word16 → List SegRecord → Prop
  | _, [] => True
  | next, r :: rest => r.seq + 1 = next ∧ SeqFrom r.seq rest

/-- With a profile the ring holds exactly N records, with none it holds none; the sequence numbers
are consecutive, the entry counter one above the youngest (R8). -/
def RingWhole (s : State) : Prop :=
  (match s.prof.committed with
    | some pr => 0 < pr.ringLength ∧ s.ring.records.length = pr.ringLength
    | none => s.ring.records = []) ∧
    SeqFrom s.ring.entryCounter s.ring.records

/-- A record's fields agree with its kind (R7). -/
def SegRecord.Agrees (r : SegRecord) : Prop :=
  (r.kind ≠ .printed → r.solvent = 0) ∧
    (r.kind = .void → r.heat = none) ∧
    (r.kind ≠ .void → ∃ h, r.heat = some h ∧ h.temp ≤ h.peak)

/-- Every record of the ring agrees with its kind (R7). -/
def RecordsAgree (s : State) : Prop := ∀ r ∈ s.ring.records, r.Agrees

/-- The staged and the committed table have an entry for each of the eight zones (R190). -/
def TablesWhole (s : State) : Prop :=
  s.prof.staged.zones.length = 8 ∧ ∀ pr, s.prof.committed = some pr → pr.zones.length = 8

end Sys2Proof.Machine
end

