-- ==== Sys2Proof/Certificates/Slice0/Obligations.lean ====
section
/-! DEFINITION. The statements for the provers. In every statement about a request, `frameTaken p s` is
the state once the port has acted on the valid frame's arrival (R165, R172, R174; stated by
`PortLiveness`), and `answer p kind payload u` is `u` with that reply handed to the port's
transmitter (R168, R169; stated by `ReplyTransmission`). -/

open Sys2Proof Sys2Proof.Machine

/-! ### Steps and time -/

/-- A step takes the command at the front of the queue and runs it on the state with the queue's
rest. -/
def Obligations.StepRunsFrontCommand : Prop :=
  ∀ (c : Instr) (rest : List Instr) (s : State),
    s.pending = c :: rest → step s = exec c (s.setPending rest)

/-- On an empty queue a step is one microsecond when no timer is due, the expiry that is due when one
is, and one of them when several are. A microsecond moves the time base, the elapsed count, the PWM count and
every running timer, and nothing else (R28, R29, R34, R56); the expiries due are those of the timers that have
run out. The choice among several is the free value of log 3, and that time passes only on an empty queue is
the model's choice (log 2). -/
def Obligations.IdleStepTakesExpiryOrMicrosecond : Prop :=
  ∀ s : State, s.pending = [] →
    (dueCommands s = [] → step s = .next (tick s)) ∧
    (∀ c, dueCommands s = [c] → step s = exec c s) ∧
    (∀ c d cs, dueCommands s = c :: d :: cs →
      ∃ e ∈ dueCommands s, step s = exec e { s with freeCount := s.freeCount + 1 }) ∧
    -- the microsecond
    (let t := tick s
     let down := fun x : Timer => x.map (· - 1)
     t.time.us = s.time.us + 1 ∧
     (s.time.sub < 999 → t.time.ms = s.time.ms ∧ t.time.sub = s.time.sub + 1) ∧
     (999 ≤ s.time.sub → t.time.ms = s.time.ms + 1 ∧ t.time.sub = 0) ∧
     t.motion =
       { s.motion with
         last := s.motion.last.map (fun r => { r with elapsed := min 4294967295 (r.elapsed + 1) })
         stallTimer := down s.motion.stallTimer
         dwellTimer := down s.motion.dwellTimer } ∧
     t.pwm = { s.pwm with elapsed := s.pwm.elapsed + 1 } ∧
     t.line =
       { s.line with
         stallGrace := down s.line.stallGrace
         excess := down s.line.excess
         purgeTimer := down s.line.purgeTimer } ∧
     t.arb =
       { s.arb with
         list := s.arb.list.map (fun e => { e with timer := down e.timer })
         settleTimer := down s.arb.settleTimer } ∧
     (∀ p, t.port p =
       { s.port p with
         gap := down (s.port p).gap
         txTimer := down (s.port p).txTimer
         window := down (s.port p).window
         pulse := down (s.port p).pulse }) ∧
     t.ring = s.ring ∧ t.load = s.load ∧ t.env = s.env ∧ t.brk = s.brk ∧ t.log = s.log ∧
     t.prof = s.prof ∧ t.pending = s.pending ∧ t.freeCount = s.freeCount) ∧
    -- what is due
    ∀ c : Instr, c ∈ dueCommands s ↔
      (c = .stallTimerExpiry ∧ s.motion.stallTimer = some 0) ∨
      (c = .dwellTimerExpiry ∧ s.motion.dwellTimer = some 0) ∨
      (c = .pwmPeriodStart ∧ 1000 ≤ s.pwm.elapsed) ∨
      (c = .purgeTimerExpiry ∧ s.line.purgeTimer = some 0) ∨
      (c = .stallGraceExpiry ∧ s.line.stallGrace = some 0) ∨
      (c = .excessTimerExpiry ∧ s.line.excess = some 0) ∨
      (c = .settleTimerExpiry ∧ s.arb.settleTimer = some 0) ∨
      (∃ e ∈ s.arb.list,
        c = .waitingTimerExpiry e.key ∧ e.status = .queued ∧ e.timer = some 0) ∨
      ∃ p, (c = .gapTimerExpiry p ∧ (s.port p).gap = some 0) ∨
        (c = .replyTransmissionEnd p ∧ (s.port p).txTimer = some 0) ∨
        (c = .windowTimerExpiry p ∧ (s.port p).window = some 0) ∨
        (c = .notePulseEnd p ∧ (s.port p).pulse = some 0)

/-- Every command answers a next state in every state, and so does every step. No command touches the
queue or the model's counter; none but RESET moves the time base, none but RESET and PWM_PERIOD_START the
PWM stage. That RESET keeps the queue and the counter is log 7, and that time passes in no command is log 2:
both are the model's choice. -/
def Obligations.EveryCommandCompletes : Prop :=
  (∀ s : State, Safe s) ∧
  ∀ (c : Instr) (s : State), ∃ t, exec c s = .next t ∧
    t.pending = s.pending ∧ t.freeCount = s.freeCount ∧
      ((∀ l, c ≠ .reset l) → t.time = s.time ∧ (c ≠ .pwmPeriodStart → t.pwm = s.pwm))

/-! ### Reset -/

/-- R40: the motion unit after a reset; with no profile committed, pulses then leave it as it is but for
the encoder reference (R31). -/
def Obligations.ResetMotionUnit : Prop :=
  ∀ (l : InputLines) (s : State), ∃ t, exec (.reset l) s = .next t ∧
    t.motion =
      { p := 0, d := 0, last := none, tStep := 0, vMeas := 0, state := .still,
        stallTimer := none, dwellTimer := none, encRef := l.enc } ∧
    t.prof.committed = none ∧
    (∃ u, exec .forwardPulse t = .next u ∧
      u.motion = { t.motion with encRef := u.motion.encRef }) ∧
    ∃ u, exec .reversePulse t = .next u ∧ u.motion = { t.motion with encRef := u.motion.encRef }

/-- Every other block after a reset (the reset tables of R10, R60, R79, R107, R123, R148, R161, R182,
R191; the counts of R28). -/
def Obligations.ResetEveryBlock : Prop :=
  ∀ (l : InputLines) (s : State), ∃ t, exec (.reset l) s = .next t ∧ IsReset l t ∧
    t.time.us = 0 ∧ t.time.ms = 0 ∧
    t.ring.records = [] ∧ t.ring.entryCounter = 0 ∧ t.ring.charge = 0 ∧ t.ring.tag = none ∧
    t.ring.inputs = [] ∧ t.ring.lastKind = .none ∧ t.ring.lastT = 0 ∧
    t.load.flow = 0 ∧ t.load.peak = 0 ∧ t.load.peakZone = 0 ∧ t.load.tripCount = 0 ∧
    t.load.fReq = 0 ∧ t.load.baseDuty = 0 ∧ t.load.floorDuty = 256 ∧ t.exhFloorHigh = true ∧
    t.env.ceiling = 0 ∧ t.env.limiter = .phase ∧ t.env.idle = false ∧ t.env.tIn = none ∧
    t.env.predicted = none ∧ t.env.underchill = false ∧ t.env.heatCaps = [] ∧
    t.line.phase = .unconfigured ∧ t.line.cause = .none ∧ t.line.ready = .fails ∧
    t.line.fill = 0 ∧ t.line.drain = 0 ∧ t.line.run = none ∧ t.line.mark = 0 ∧
    t.line.purgeVolume = 0 ∧ t.line.speedGrant = 0 ∧ t.line.exhaust = 0 ∧
    t.line.setpoints = [] ∧ t.line.heatInhibit = true ∧ t.line.permit = false ∧
    t.line.estopActive = (l.estop == .low) ∧
    t.line.stallGrace = none ∧ t.line.excess = none ∧ t.line.purgeTimer = none ∧
    (∀ d, (t.det d).cfg = none ∧ (t.det d).armed = false ∧ (t.det d).latch = false) ∧
    t.brk.pb = none ∧
    t.arb.list = [] ∧ t.arb.inFlight = none ∧ t.arb.arrival = 0 ∧
    (∀ p, t.arb.outcomes.get p = none) ∧
    t.log.records = [] ∧ t.log.freeze = .opened ∧ t.log.drops = 0 ∧
    (∀ p, t.log.unread.get p = 0 ∧ t.log.skip.get p = 0) ∧
    (∀ p, (t.port p).rx = .hunt ∧ (t.port p).tx = none ∧ (t.port p).waiting = none ∧
      (t.port p).live = .quiet ∧ (t.port p).window = none ∧ (t.port p).action = .safe ∧
      (t.port p).lock = false ∧ (t.port p).pendingSet = 0 ∧
      (t.port p).map = BitVec.allOnes 16 ∧ (t.port p).mode = .latched ∧ (t.port p).note = false) ∧
    t.prof.committed = none ∧ t.prof.staged = .default ∧ t.prof.holder = none ∧
    t.prof.code = .none ∧ t.prof.errorItem = none

/-! ### Encoder and steps -/

/-- R31: with no profile committed a pulse changes the encoder reference and nothing else. -/
def Obligations.UncommittedPulse : Prop :=
  ∀ s : State, s.prof.committed = none →
    exec .forwardPulse s =
      .next (s.setMotion { s.motion with encRef := encForward s.motion.encRef }) ∧
    exec .reversePulse s =
      .next (s.setMotion { s.motion with encRef := encReverse s.motion.encRef })

/-- The forward cycle of the encoder pair and its reverse (R30); a change of both lines replaces the
reference and nothing else. -/
def Obligations.EncoderReference : Prop :=
  encForward { a := .low, b := .low } = { a := .high, b := .low } ∧
    encForward { a := .high, b := .low } = { a := .high, b := .high } ∧
    encForward { a := .high, b := .high } = { a := .low, b := .high } ∧
    encForward { a := .low, b := .high } = { a := .low, b := .low } ∧
    (∀ e, encReverse (encForward e) = e ∧ encForward (encReverse e) = e) ∧
    (∀ e, (encOpposite e).a ≠ e.a ∧ (encOpposite e).b ≠ e.b) ∧
    ∀ s : State, exec .encoderDoubleChange s =
      .next (s.setMotion { s.motion with encRef := encOpposite s.motion.encRef })

/-- Pulses that issue no step, with a profile committed (R32, R33, R38): while MOVING they move P or D
and restart the stall timer, and change nothing else; while STILL they also make the web MOVING, stop
the dwell timer and the stall grace timer, end the STALL condition (R37), and recompute the envelope; with no
change waiting the rest stays. -/
def Obligations.PulsesCount : Prop :=
  ∀ (pr : Profile) (s : State), s.prof.committed = some pr →
    let m := s.motion
    let st : Timer := some (pr.stallLimit * 1000)
    let counted := fun (c : Instr) (n : Motion) =>
      (m.state = .moving → exec c s = .next (s.setMotion { n with stallTimer := st })) ∧
      (m.state = .still → ∃ t, exec c s = .next t ∧
        t.motion = { n with stallTimer := st, dwellTimer := none, state := .moving } ∧
        LevelBecomes .stall false s t ∧ t.env = envelopeOf t ∧
        t.line.stallGrace = none ∧ t.ring = s.ring ∧ t.prof = s.prof ∧
        t.brk.dets = s.brk.dets ∧ t.load.flow = s.load.flow ∧ t.load.peak = s.load.peak ∧
        (s.arb.list = [] →
          t.line = { s.line with stallGrace := none } ∧ t.arb = s.arb ∧ t.log = s.log ∧
          t.load = s.load ∧ t.brk = s.brk))
    (0 < m.d →
      counted .forwardPulse { m with encRef := encForward m.encRef, d := m.d - 1 }) ∧
    (m.d = 0 → m.p + 1 < pr.pulsesPerSeg →
      counted .forwardPulse { m with encRef := encForward m.encRef, p := m.p + 1 }) ∧
    (0 < m.p →
      counted .reversePulse { m with encRef := encReverse m.encRef, p := m.p - 1 }) ∧
    (m.p = 0 →
      counted .reversePulse { m with encRef := encReverse m.encRef, d := min 65535 (m.d + 1) })

/-- The forward pulse that completes a segment issues an ADVANCE: its step time and v_meas (R34 to R36),
and the ring after it (R15, R18, R19, R22): the records computed at their positions move one position
downstream, the one at N-1 leaves, and a new one enters at position 0. Then, in the order of log 9, log 10
and log 29 (the model's choice), the record computed at N-1 is handed off (R16, R17), the load unit takes
the step, the idle flag is cleared and the envelope recomputed (R70, R74), the fill, run and drain counts count (R90 to R93), the excess speed is
tested against the ceiling of this step (R71, R96), and a SPEED change in flight is observed (R140). -/
def Obligations.AdvanceStep : Prop :=
  ∀ (pr : Profile) (s : State), s.prof.committed = some pr → s.motion.d = 0 →
    pr.pulsesPerSeg ≤ s.motion.p + 1 →
    let t := match s.motion.last with
      | some r => if r.elapsed = 0 then 1 else r.elapsed
      | none => pr.stallLimit * 1000
    let cs := computeAll pr s.ring t
    let kind : SegKind := if s.line.phase = .printing then .printed else .blank
    ∃ u, exec .forwardPulse s = .next u ∧
      u.motion =
        { p := 0, d := 0, last := some { instant := s.time.us, elapsed := 0 }, tStep := t,
          vMeas := min 65535 (pr.segLength * 600000 / t), state := .moving,
          stallTimer := some (pr.stallLimit * 1000),
          dwellTimer := if s.motion.state = .still then none else s.motion.dwellTimer,
          encRef := encForward s.motion.encRef } ∧
      u.ring.records =
        { seq := s.ring.entryCounter, kind := kind,
          solvent := if kind = .printed then s.ring.charge else 0,
          heat := some { temp := pr.ambient, peak := pr.ambient },
          stranded := false, tag := s.ring.tag } :: (cs.map (·.record)).dropLast ∧
      u.ring.entryCounter = s.ring.entryCounter + 1 ∧
      u.ring.release = releaseSums pr cs ∧
      u.ring.lastKind = .advance ∧ u.ring.lastT = t ∧
      u.ring.inputs = s.ring.inputs ∧ u.ring.charge = s.ring.charge ∧ u.ring.tag = s.ring.tag ∧
      u.prof = s.prof ∧ u.brk.dets = s.brk.dets ∧ u.load.flow = s.load.flow ∧
      u.env.idle = false ∧
      -- the other blocks, one after another
      (let moving := pulseMotion pr (moveReference encForward s)
       let timed := moving.setMotion
         { moving.motion with
           p := 0, tStep := t, vMeas := u.motion.vMeas, last := u.motion.last }
       let handed := match (cs.map (·.record)).getLast? with
         | some r => handOff pr r timed
         | none => timed
       let computed := recompute (setIdle false (loadStep pr (handed.setRing u.ring)))
       let counted := drainStep (runStep (fillStep (arbiterPass computed)))
       u.ring.lastEntry = some { kind := kind, phase := moving.line.phase } ∧
       u = settleObserve .advance
         (arbiterPass (excessTest pr computed.env.ceiling counted)))

/-- The stall expiry (R37, R94, R96): STILL, v_meas 0, no last advance instant, the dwell timer
running; P, D and t_step kept; the STALL condition holding; the stall grace timer started in a heated
phase, the excess timer stopped. A stopped stall timer has no expiry (log 4). -/
def Obligations.StallExpiry : Prop :=
  ∀ s : State,
    (s.motion.stallTimer = none → exec .stallTimerExpiry s = .next s) ∧
    ∀ pr, s.prof.committed = some pr → s.motion.stallTimer.isSome →
      ∃ t, exec .stallTimerExpiry s = .next t ∧
        t.motion =
          { s.motion with
            state := .still, vMeas := 0, last := none, stallTimer := none,
            dwellTimer := some (pr.dwellInterval * 1000) } ∧
        t.line.excess = none ∧
        t.line.stallGrace =
          (if s.line.phase.heated then some (pr.stallGrace * 1000) else s.line.stallGrace) ∧
        LevelBecomes .stall true s t ∧ t.env = envelopeOf t ∧
        t.ring = s.ring ∧ t.prof = s.prof ∧ t.brk.dets = s.brk.dets ∧
        t.load.flow = s.load.flow ∧ t.load.peak = s.load.peak

/-- The dwell expiry (R39, R20, R22): a DWELL step of DWELL_INTERVAL on every record in place, with the
stranding rule; the motion unit changes only its restarted dwell timer. The places of the records, and the
zone each lies in, are those of R3. -/
def Obligations.DwellExpiry : Prop :=
  ∀ (pr : Profile) (s : State), s.prof.committed = some pr → s.motion.dwellTimer.isSome →
    let t := pr.dwellInterval * 1000
    let cs := computeAll pr s.ring t
    ZoneRuns pr ∧
    (∀ (q : Nat) (pl : Place) (r : SegRecord), pr.places[q]? = some pl →
      s.ring.records[q]? = some r → cs[q]? = some (computeRecord pr s.ring.inputs t pl r)) ∧
    ∃ u, exec .dwellTimerExpiry s = .next u ∧
      u.motion = { s.motion with dwellTimer := some t } ∧
      u.ring.records =
        List.zipWith (fun pl c =>
          { c.record with
            stranded := c.record.stranded ||
              (c.record.kind != .void && pl.entry.kind == .dryer &&
                c.record.heat.any (fun h => decide (pr.releaseTemp ≤ h.temp))) }) pr.places cs ∧
      u.ring.release = releaseSums pr cs ∧ u.ring.lastKind = .dwell ∧ u.ring.lastT = t ∧
      u.ring.lastEntry = none ∧ u.ring.entryCounter = s.ring.entryCounter ∧
      u.ring.inputs = s.ring.inputs ∧ u.ring.charge = s.ring.charge ∧ u.ring.tag = s.ring.tag ∧
      u.prof = s.prof ∧ u.brk.dets = s.brk.dets ∧ u.load.flow = s.load.flow

/-! ### The segment computation -/

/-- R13: heating of one record in its zone, with input A and scaled coefficient k_eff. -/
def Obligations.HeatingRule : Prop :=
  ∀ (pr : Profile) (inputs : List Int) (t : Nat) (pl : Place) (r : SegRecord),
    let k := min 256 (pl.entry.kHeat * t / pr.tRef)
    let a := inputs.getD pl.zone 0
    let r' := (computeRecord pr inputs t pl r).record
    (r.kind = .void → r' = r) ∧
    (r.kind ≠ .void → ∀ h, r.heat = some h →
      let temp := h.temp + Int.tdiv ((a - h.temp) * k) 256
      r'.heat = some { temp := temp, peak := max h.peak temp } ∧
      min h.temp a ≤ temp ∧ temp ≤ max h.temp a ∧ temp ≤ max h.peak temp ∧
      ((a - h.temp).natAbs * k < 256 → temp = h.temp))

/-- R14: release of one record after heating, with e_eff; what it released goes to the release sum of
the zone it was computed in. -/
def Obligations.ReleaseRule : Prop :=
  (∀ (pr : Profile) (inputs : List Int) (t : Nat) (pl : Place) (r : SegRecord),
    let e := min 256 (pl.entry.kRelease * t / pr.tRef)
    let c := computeRecord pr inputs t pl r
    c.zone = pl.zone ∧ c.record.solvent = r.solvent - c.released ∧ c.released ≤ r.solvent ∧
    (r.kind = .printed → pl.entry.kind = .dryer → ∀ h, c.record.heat = some h →
      (pr.releaseTemp ≤ h.temp → 0 < r.solvent →
        c.released = (r.solvent * e + 255) / 256 ∧ (0 < e → 1 ≤ c.released) ∧
          (e = 0 → c.released = 0)) ∧
      (h.temp < pr.releaseTemp ∨ r.solvent = 0 → c.released = 0)) ∧
    (r.kind ≠ .printed ∨ pl.entry.kind ≠ .dryer → c.released = 0)) ∧
  ∀ (pr : Profile) (cs : List Computed) (z : Nat), z < pr.dryers.length →
    (releaseSums pr cs)[z]? =
      some ((cs.filter (fun c => c.zone == z)).map (·.released)).sum

/-- The record that leaves at an ADVANCE (R16, R17): a VOID one leaves silently, any other goes to the
log with its four flags; EXIT_FLAG is raised for a PRINTED one that is WET, UNDERCHILLED or
OVERHEATED. -/
def Obligations.ExitRecord : Prop :=
  ∀ (pr : Profile) (r : SegRecord) (s : State),
    (r.kind = .void → handOff pr r s = s) ∧
    (r.kind ≠ .void → ∀ h, r.heat = some h →
      ∀ wet under hot,
        wet = decide (pr.wetLimit < r.solvent) → under = decide (pr.setLimit < h.temp) →
        hot = decide (pr.blisterLimit < h.peak) →
        let logged := logAppend
          (.exit r.kind
            { wet := wet, underchilled := under, overheated := hot, stranded := r.stranded }
            r.seq r.solvent h.temp h.peak r.tag) s
        (r.kind = .printed → wet || under || hot →
          handOff pr r s = raiseAll .exitFlag logged) ∧
        (r.kind = .blank ∨ (wet || under || hot) = false → handOff pr r s = logged))

/-- The void, strand and restore operations, position by position (R23, R24, R25). -/
def Obligations.BreakRingOperations : Prop :=
  ∀ (pr : Profile) (p : Nat) (l : List SegRecord),
    (∀ q, q ≤ p → (voidFrom p l)[q]? = l[q]?) ∧
    (∀ q r, p < q → l[q]? = some r →
      (voidFrom p l)[q]? = some
        (if r.kind = .void then r
         else { r with kind := .void, solvent := 0, heat := none, tag := none })) ∧
    (voidFrom p l).length = l.length ∧
    voidCount p l = (l.drop (p + 1)).countP (fun r => r.kind == .printed) ∧
    (∀ q r, l[q]? = some r → (strandTo pr p l)[q]? = some
      (if q ≤ p ∧ q < pr.dryerLength ∧ r.kind ≠ .void then { r with stranded := true } else r)) ∧
    (strandTo pr p l).length = l.length ∧
    (∀ r : SegRecord, r.kind ≠ .void → restoreRecord pr r = r) ∧
    ∀ r : SegRecord, r.kind = .void → restoreRecord pr r =
      { r with
        kind := .blank, solvent := 0, heat := some { temp := pr.ambient, peak := pr.ambient },
        tag := none }

/-! ### Load unit, exhaust, purge -/

/-- At every step each DRYER zone's vapour load is the one R46 gives for that step's release sum, its
step time and F_z, and lies within 0 to 4000; peak, peak zone, demand and base duty follow from the loads
(R47, R52, R53), F stays (R44). LOAD_WARN and LOAD_TRIP hold where the peak is at or above their thresholds
(R49). -/
def Obligations.StepLoads : Prop :=
  ∀ (pr : Profile) (c : Instr) (s : State), s.prof.committed = some pr → TakesStep pr c s →
    ∃ u, exec c s = .next u ∧ u.ring.release.length = pr.dryers.length ∧
      u.load.loads.length = pr.dryers.length ∧ LoadsAgree pr u ∧ (∀ l ∈ u.load.loads, l ≤ 4000) ∧
      DemandAgrees pr u ∧ u.load.flow = s.load.flow ∧
      LevelBecomes .loadWarn (decide (pr.loadWarn ≤ u.load.peak)) s u ∧
      LevelBecomes .loadTrip (decide (pr.loadTrip ≤ u.load.peak)) s u

/-- The trip-step counter at a step, and the load trip (R50, R51): where the counter reaches
TRIP_GRACE, every phase but UNCONFIGURED and SAFE becomes SAFE with cause LOAD_TRIP. At a dwell the log
takes the TRIP record and then the PHASE record; in SAFE the TRIP record alone. -/
def Obligations.LoadTrip : Prop :=
  ∀ (pr : Profile) (c : Instr) (s : State), s.prof.committed = some pr → TakesStep pr c s →
    ∃ u, exec c s = .next u ∧
      u.load.tripCount =
        (if pr.loadTrip ≤ u.load.peak then min 255 (s.load.tripCount + 1) else 0) ∧
      (s.load.tripCount < pr.tripGrace → u.load.tripCount = pr.tripGrace →
        (s.line.phase ≠ .unconfigured → u.line.phase = .safe) ∧
        (s.line.phase ≠ .unconfigured → s.line.phase ≠ .safe →
          u.line.cause = .loadTrip ∧ u.arb.list = [] ∧ u.arb.inFlight = none ∧
          (c = .dwellTimerExpiry →
            u.log =
              (logAppend (.phase s.line.phase .safe .loadTrip s.motion.vMeas)
                (logAppend (.trip u.load.peakZone u.load.peak) s)).log)) ∧
        (s.line.phase = .safe →
          u.line.cause = s.line.cause ∧
          (c = .dwellTimerExpiry →
            u.log = (logAppend (.trip u.load.peakZone u.load.peak) s).log)))

/-- The floor duty of R54, which `setFloorDuty` sets (R55). -/
def Obligations.FloorDutyRule : Prop :=
  ∀ s : State,
    (s.prof.committed = none → (setFloorDuty s).load.floorDuty = 256) ∧
    ∀ pr, s.prof.committed = some pr →
      let forced :=
        s.line.phase = .unconfigured ∨ s.line.phase = .webBreak ∨ s.line.phase = .safe ∨
        pr.loadTrip ≤ s.load.peak ∨ (s.load.flow = 0 ∧ ∃ r ∈ s.ring.release, 0 < r) ∨
        ((s.port .dryer).live = .lost ∧ (s.port .dryer).action = .limit)
      let duty := (setFloorDuty s).load.floorDuty
      (forced → duty = 256) ∧
      (¬forced → s.line.phase.heated → duty = max s.load.baseDuty pr.dutyMin) ∧
      (¬forced → s.line.phase = .cold → duty = pr.dutyCold) ∧
      (¬forced → s.line.phase = .purge → duty = pr.purgeDuty)

/-- The PWM stage at a period's start and the line through the period (R56). -/
def Obligations.PwmStage : Prop :=
  (∀ s : State, exec .pwmPeriodStart s =
    .next (s.setPwm { elapsed := 0, highTime := s.load.floorDuty * 1000 / 256 })) ∧
  (∀ (s : State) (k duty : Nat), k < 1000 → duty ≤ 256 →
    ((s.setPwm { elapsed := k, highTime := duty * 1000 / 256 }).exhFloorHigh = true ↔
      k < duty * 1000 / 256)) ∧
  (∀ duty : Nat, 1 ≤ duty → duty ≤ 255 → 3 ≤ duty * 1000 / 256 ∧ duty * 1000 / 256 ≤ 996) ∧
  ∀ (s : State) (k : Nat),
    (s.setPwm { elapsed := k, highTime := 256 * 1000 / 256 }).exhFloorHigh = true ∧
      (s.setPwm { elapsed := k, highTime := 0 * 1000 / 256 }).exhFloorHigh = false

/-- A purge expiry (R58, R59): the timer restarts, the volume grows by floor(F / 10) or returns to 0;
at PURGE_VOLUME the phase becomes HEATING, and with no change waiting READY where the ready test holds.
A stopped timer has no expiry (log 4). -/
def Obligations.PurgeExpiry : Prop :=
  (∀ s : State, s.line.purgeTimer = none → exec .purgeTimerExpiry s = .next s) ∧
  ∀ (pr : Profile) (s : State), s.prof.committed = some pr → s.line.purgeTimer.isSome →
    s.line.phase = .purge →
    let v :=
      if pr.purgeFlow ≤ s.load.flow ∧ (s.port .dryer).live ≠ .lost then
        min 16777215 (s.line.purgeVolume + s.load.flow / 10)
      else 0
    (v < pr.purgeVolume → exec .purgeTimerExpiry s =
      .next (s.setLine { s.line with purgeTimer := some 100000, purgeVolume := v })) ∧
    (pr.purgeVolume ≤ v → ∃ t, exec .purgeTimerExpiry s = .next t ∧ KeepsPlant s t ∧
      t.line.purgeTimer = none ∧ t.line.purgeVolume = 0 ∧ t.line.heatInhibit = false ∧
      (t.line.phase = .heating ∨ t.line.phase = .ready) ∧
      (s.arb.list = [] →
        (readyTest pr s = true →
          t.line.phase = .ready ∧ t.line.cause = .readyMet ∧ t.line.permit = true ∧
          t.line.ready = .holds) ∧
        (readyTest pr s = false →
          t.line.phase = .heating ∧ t.line.cause = .purgeDone ∧ t.line.permit = false ∧
          t.line.ready = .fails)))

/-! ### Envelope unit -/

/-- The ceiling after a recomputation (R64): with a profile the least applied component, the limiter the
first of the least in the tie order; with none 0 with limiter PHASE. The components but CHILL are those of
R65 to R67 and R69. A recomputation raises CEILING_DROP at every port exactly where it takes the ceiling
from at or above v_meas to below it (R72). -/
def Obligations.CeilingIsLeastComponent : Prop :=
  (∀ s : State, s.prof.committed = none →
    (recompute s).env.ceiling = 0 ∧ (recompute s).env.limiter = .phase) ∧
  (∀ (pr : Profile) (s : State), s.prof.committed = some pr →
    let e := (recompute s).env
    e.comps.value e.limiter = some e.ceiling ∧
    (∀ l v, e.comps.value l = some v →
      e.ceiling ≤ v ∧ (v = e.ceiling → e.limiter.code ≤ l.code)) ∧
    e.comps.max = some pr.speedMax ∧
    (s.line.phase = .cold ∨ s.line.phase = .purge ∨ s.line.phase = .heating →
      e.comps.phase = some pr.crawlLimit) ∧
    (s.line.phase = .ready ∨ s.line.phase = .printing ∨ s.line.phase = .draining →
      e.comps.phase = some pr.speedMax) ∧
    (s.line.phase = .unconfigured ∨ s.line.phase = .webBreak ∨ s.line.phase = .safe →
      e.comps.phase = some 0) ∧
    e.comps.fill = (if 0 < s.line.fill then some pr.fillSpeed else none) ∧
    e.comps.vapour =
      (if s.ring.lastKind = .advance ∧ pr.crawlLimit ≤ s.motion.vMeas ∧ 0 < s.load.peak then
        some (max pr.crawlLimit (s.motion.vMeas * pr.loadHold / s.load.peak))
      else none) ∧
    e.comps.chill.isSome ∧
    e.comps.port =
      (if ((s.port .dryer).live = .lost ∧ (s.port .dryer).action = .limit) ∨
          ((s.port .chill).live = .lost ∧ (s.port .chill).action = .limit) then
        some pr.crawlLimit
      else none)) ∧
  ∀ (s : State) (p : Port),
    let drops := s.motion.vMeas ≤ s.env.ceiling ∧ (recompute s).env.ceiling < s.motion.vMeas
    (drops → Notice.ceilingDrop.inSet ((recompute s).port p).pendingSet = true) ∧
    (¬drops → Notice.ceilingDrop.inSet ((recompute s).port p).pendingSet =
      Notice.ceilingDrop.inSet (s.port p).pendingSet)

/-- The chill entry temperature T_in (R63), the hottest PRINTED or BLANK record of the last DRYER zone, absent
where there is none; and the CHILL component (R68), the greatest speed from CRAWL_LIMIT to SPEED_MAX at
which the chill trial from T_in passes, CRAWL_LIMIT where none passes, SPEED_MAX where T_in is absent. What
the trial computes is R62's. -/
def Obligations.ChillComponentIsGreatest : Prop :=
  ∀ (pr : Profile) (s : State), s.prof.committed = some pr →
    let first := pr.zoneStart (pr.dryers.length - 1)
    let stands := fun (q : Nat) (t : Int) =>
      first ≤ q ∧ q < pr.dryerLength ∧
        ∃ r h, s.ring.records[q]? = some r ∧ r.kind ≠ .void ∧ r.heat = some h ∧ h.temp = t
    let tIn := (recompute s).env.tIn
    let passes := fun v : Nat =>
      ∀ x, tIn = some x →
        chillTrial pr (rollsOf pr s.ring.inputs) (pr.segLength * 600000 / v) x ≤ pr.setLimit
    ChillTrialRule pr ∧
    (∀ x, tIn = some x → (∃ q, stands q x) ∧ ∀ q t, stands q t → t ≤ x) ∧
    (tIn = none → ∀ q t, ¬stands q t) ∧
    (1 ≤ pr.crawlLimit → pr.crawlLimit ≤ pr.speedMax →
      ∃ v, (recompute s).env.comps.chill = some v ∧ pr.crawlLimit ≤ v ∧ v ≤ pr.speedMax ∧
        (tIn = none → v = pr.speedMax) ∧
        ((∃ w, pr.crawlLimit ≤ w ∧ w ≤ pr.speedMax ∧ passes w) →
          passes v ∧ ∀ w, v < w → w ≤ pr.speedMax → ¬passes w) ∧
        ((∀ w, pr.crawlLimit ≤ w → w ≤ pr.speedMax → ¬passes w) → v = pr.crawlLimit))

/-- R73: the heat cap of every DRYER zone at every recomputation. -/
def Obligations.HeatCapTable : Prop :=
  ∀ s : State,
    (s.prof.committed = none → (recompute s).env.heatCaps = []) ∧
    ∀ pr, s.prof.committed = some pr → ∀ z : Nat,
      (recompute s).env.heatCaps[z]? =
        (pr.dryers[z]?).map (fun e =>
          if s.line.phase = .heating ∨ s.line.phase = .ready ∨ s.line.phase = .printing ∨
              s.line.phase = .draining then
            (if s.env.idle then min e.setMax pr.idleTemp else e.setMax)
          else 0)

/-- The predicted exit temperature and the UNDERCHILL condition at a recomputation (R76, R77), by the chill
trial of R62: the condition stands at every port, and where it begins the kind becomes pending. -/
def Obligations.PredictedExit : Prop :=
  ∀ s : State,
    (s.prof.committed = none →
      (recompute s).env.predicted = none ∧ (recompute s).env.underchill = false) ∧
    (∀ pr, s.prof.committed = some pr →
      let t := if s.motion.state = .moving ∧ 0 < s.motion.tStep then s.motion.tStep else pr.tRef
      let e := (recompute s).env
      ChillTrialRule pr ∧
      (e.tIn = none → e.predicted = some pr.ambient ∧ e.underchill = false) ∧
      ∀ x, e.tIn = some x →
        let out := chillTrial pr (rollsOf pr s.ring.inputs) t x
        e.predicted = some out ∧ (e.underchill = true ↔ pr.setLimit < out)) ∧
    LevelBecomes .underchill (recompute s).env.underchill s (recompute s)

/-! ### Phases -/

/-- A phase change taken whole (R81 to R83, with R55, R58, R86, R94, R116, R134): phase, cause, lines, counts
and timers, the PHASE record and notice, the floor duty of R54 and the recomputed envelope; the plant's side
and the granted records stay. The stall grace timer starts at entry to the heated phases while STILL. Entry to
DRAINING makes QUEUED ZONE decreases HELD and stops their timers, leaving it makes HELD entries QUEUED with a
fresh timer, SAFE aborts every change (R146), and every other change leaves the arbiter as it was. A change
to the phase already held is none. What R86 and R103 say otherwise about the ready result on entry to SAFE is left open
(log 5). -/
def Obligations.PhaseChangeEffects : Prop :=
  ∀ (new : Phase) (cause : Cause) (s : State),
    (s.line.phase = new → phaseWrite new cause s = s) ∧
    (s.line.phase ≠ new →
      let t := phaseWrite new cause s
      t.line.phase = new ∧ t.line.cause = cause ∧
      t.line.heatInhibit = !new.heated ∧
      (t.line.permit = true ↔ new = .ready ∨ new = .printing) ∧
      t.line.fill = (if s.line.phase = .printing then 0 else s.line.fill) ∧
      t.line.run = (if s.line.phase = .printing then none else s.line.run) ∧
      t.line.drain = (if s.line.phase = .draining then 0 else s.line.drain) ∧
      t.line.mark = s.line.mark ∧
      (new.heated = false → t.line.stallGrace = none ∧ t.line.excess = none) ∧
      (new.heated → s.line.phase.heated →
        t.line.stallGrace = s.line.stallGrace ∧ t.line.excess = s.line.excess) ∧
      (new = .heating ∨ new = .ready ∨ new = .draining → t.line.ready = s.line.ready) ∧
      (new = .unconfigured ∨ new = .cold ∨ new = .purge ∨ new = .printing ∨ new = .webBreak →
        t.line.ready = .fails) ∧
      t.line.purgeTimer = (if new = .purge then some 100000 else none) ∧ t.line.purgeVolume = 0 ∧
      t.line.speedGrant = s.line.speedGrant ∧ t.line.setpoints = s.line.setpoints ∧
      t.line.exhaust = s.line.exhaust ∧ t.line.estopActive = s.line.estopActive ∧
      t.brk.pb = (if s.line.phase = .webBreak then none else s.brk.pb) ∧
      t.load.floorDuty = floorDuty t ∧ t.env = envelopeOf t ∧
      t.env.idle = (new.heated && s.env.idle) ∧
      t.log = (logAppend (.phase s.line.phase new cause s.motion.vMeas) s).log ∧
      (∀ p, Notice.phase.inSet (t.port p).pendingSet = true) ∧
      (∀ pr, s.prof.committed = some pr → new.heated → s.line.phase.heated = false →
        t.line.stallGrace =
          (if s.motion.state = .still then some (pr.stallGrace * 1000) else none)) ∧
      (new = .safe →
        t.arb.list = [] ∧ t.arb.inFlight = none ∧
        (s.arb.inFlight.isSome → t.arb.settleCount = 0 ∧ t.arb.settleTimer = none) ∧
        AbortedOutcomes s t ∧ AbortNoticed s t) ∧
      (new = .draining →
        t.arb = { s.arb with list := t.arb.list } ∧ t.arb.list.length = s.arb.list.length ∧
        ∀ (i : Nat) (e : PendingEntry), s.arb.list[i]? = some e →
          let lowers := e.status = .queued ∧
            ∃ z, e.key = .zone z ∧ e.value < s.line.setpoints.getD z 0
          (lowers → t.arb.list[i]? = some { e with status := .held, timer := none }) ∧
          (¬lowers → t.arb.list[i]? = some e)) ∧
      (s.line.phase = .draining → new ≠ .safe →
        t.arb = { s.arb with list := t.arb.list } ∧ t.arb.list.length = s.arb.list.length ∧
        ∀ (pr : Profile) (i : Nat) (e : PendingEntry), s.prof.committed = some pr →
          s.arb.list[i]? = some e →
          (e.status = .held → t.arb.list[i]? =
            some { e with status := .queued, timer := some (pr.pendingLimit * 1000) }) ∧
          (e.status = .queued → t.arb.list[i]? = some e)) ∧
      (new ≠ .safe → new ≠ .draining → s.line.phase ≠ .draining → t.arb = s.arb) ∧
      KeepsPlant s t)

/-- Every step keeps HEAT_INHIBIT and PERMIT as the phase says (R82, R83), the floor duty at 256 in
UNCONFIGURED, BREAK and SAFE (R54), and the counts, the purge and p_b in their phases (R58, R81, R116). -/
def Obligations.StepKeepsPhaseDiscipline : Prop :=
  ∀ s t : State, step s = .next t →
    (LinesFollowPhase s → LinesFollowPhase t) ∧ (DutyForced s → DutyForced t) ∧
      (CountsFollowPhase s → CountsFollowPhase t)

/-- Every step keeps the envelope the one a recomputation would give and the floor duty the one R54 gives:
every event that changes what they are formed from sets them anew (R55, R70). -/
def Obligations.StepKeepsEnvelopeAndDutyCurrent : Prop :=
  ∀ s t : State, EnvelopeCurrent s → DutyCurrent s → step s = .next t →
    EnvelopeCurrent t ∧ DutyCurrent t

/-- Every step keeps the log within 240 records and every unread count within the records held, and
the pending list within 8 entries (R151, R153, R134); both profile tables keep their eight zones (R190). -/
def Obligations.StepKeepsListsBounded : Prop :=
  ∀ s t : State, step s = .next t →
    (LogBounded s → LogBounded t) ∧ (PendingBounded s → PendingBounded t) ∧
      (TablesWhole s → TablesWhole t)

/-- Every step keeps each LATCHED port's NOTE line asserted exactly while a mapped kind is pending
(R180). -/
def Obligations.StepKeepsNoteLines : Prop :=
  ∀ s t : State, NoteFollowsPending s → step s = .next t → NoteFollowsPending t

/-- Every step keeps the ring whole: N records under a profile and none without, consecutive sequence
numbers, and every record's fields in agreement with its kind (R7, R8). -/
def Obligations.StepKeepsRingWhole : Prop :=
  ∀ s t : State, RingWhole s → RecordsAgree s → step s = .next t → RingWhole t ∧ RecordsAgree t

/-- The invariants hold after every reset. -/
def Obligations.ResetMeetsInvariants : Prop :=
  ∀ l : InputLines,
    let s := State.afterReset l
    LinesFollowPhase s ∧ DutyForced s ∧ CountsFollowPhase s ∧ EnvelopeCurrent s ∧ DutyCurrent s ∧
      LogBounded s ∧ PendingBounded s ∧ NoteFollowsPending s ∧ RingWhole s ∧ RecordsAgree s ∧
      TablesWhole s

/-- ESTOP (R101 to R103): an activation takes every phase but UNCONFIGURED and SAFE to SAFE with cause
ESTOP; in those two the level alone is held. A release changes no phase. An activation of an input already
ACTIVE changes nothing (log 17). -/
def Obligations.EstopTakesSafe : Prop :=
  (∀ s : State, exec .estopRelease s = .next (s.setLine { s.line with estopActive := false })) ∧
  (∀ s : State, s.line.estopActive = true → exec .estopActivation s = .next s) ∧
  (∀ s : State, s.line.estopActive = false →
    s.line.phase = .unconfigured ∨ s.line.phase = .safe →
    exec .estopActivation s = .next (s.setLine { s.line with estopActive := true })) ∧
  ∀ s : State, s.line.estopActive = false → s.line.phase ≠ .unconfigured → s.line.phase ≠ .safe →
    ∃ t, exec .estopActivation s = .next t ∧
      t.line.phase = .safe ∧ t.line.cause = .estop ∧ t.line.estopActive = true ∧
      t.line.heatInhibit = true ∧ t.line.permit = false ∧
      t.line.stallGrace = none ∧ t.line.excess = none ∧ t.line.purgeTimer = none ∧
      t.line.purgeVolume = 0 ∧
      t.line.speedGrant = s.line.speedGrant ∧ t.line.setpoints = s.line.setpoints ∧
      t.line.exhaust = s.line.exhaust ∧ t.line.mark = s.line.mark ∧
      t.arb.list = [] ∧ t.arb.inFlight = none ∧ AbortedOutcomes s t ∧ AbortNoticed s t ∧
      t.load.floorDuty = 256 ∧ t.env.ceiling = 0 ∧ t.env.idle = false ∧
      (∀ c ∈ t.env.heatCaps, c = 0) ∧
      (∀ pr, s.prof.committed = some pr → 0 < pr.speedMax → t.env.limiter = .phase) ∧
      t.log = (logAppend (.phase s.line.phase .safe .estop s.motion.vMeas) s).log ∧
      KeepsPlant s t

/-- The ready test (R86) and what an evaluation does (R87): HEATING goes to READY where it holds, READY to
HEATING where it fails, DRAINING keeps its phase; other phases evaluate nothing. -/
def Obligations.ReadyTestRule : Prop :=
  ∀ (pr : Profile) (s : State), s.prof.committed = some pr →
    (readyTest pr s = true ↔
      (∀ (z : Nat) (e : ZoneItems), pr.dryers[z]? = some e →
        (s.ring.inputs.getD z 0 - s.line.setpoints.getD z 0).natAbs ≤ e.tol) ∧
      pr.flowReady ≤ s.load.flow ∧
      ∀ (c : Nat) (e : ZoneItems) (a : Int), pr.chills[c]? = some e →
        s.ring.inputs[pr.dryers.length + c]? = some a → a ≤ pr.chillReady) ∧
    let t := evaluateReady s
    (s.line.phase = .heating → readyTest pr s = true →
      t.line.phase = .ready ∧ t.line.cause = .readyMet ∧ t.line.ready = .holds) ∧
    (s.line.phase = .heating → readyTest pr s = false →
      t = s.setLine { s.line with ready := .fails }) ∧
    (s.line.phase = .ready → readyTest pr s = true →
      t = s.setLine { s.line with ready := .holds }) ∧
    (s.line.phase = .ready → readyTest pr s = false →
      t.line.phase = .heating ∧ t.line.cause = .readyLost ∧ t.line.ready = .fails ∧
      t.line.permit = false) ∧
    (s.line.phase = .draining →
      t = s.setLine { s.line with ready := if readyTest pr s then .holds else .fails }) ∧
    (s.line.phase ≠ .heating → s.line.phase ≠ .ready → s.line.phase ≠ .draining → t = s)

/-- IMPRESSION_ON (R88), in every phase; the repeat byte above 1 is answered after the phase and before
the conditions (log 12). -/
def Obligations.ImpressionOn : Prop :=
  ∀ (pl : List Byte) (s : State), pl.length = 4 →
    let u := frameTaken .line s
    let count := fieldAt pl 0 3
    let rep := fieldAt pl 3 1
    (u.prof.committed = none ∨ u.line.phase ≠ .ready →
      exec (.impressionOn .line pl) s = .next (answer .line 0x21 [0x10] u)) ∧
    ∀ pr, u.prof.committed = some pr → u.line.phase = .ready →
      let open' := pr.printMin ≤ u.motion.vMeas ∧ u.motion.vMeas ≤ u.env.ceiling ∧
        ∀ p, (u.port p).live = .active
      (1 < rep → exec (.impressionOn .line pl) s = .next (answer .line 0x21 [0x12] u)) ∧
      (rep ≤ 1 → ¬open' →
        exec (.impressionOn .line pl) s = .next (answer .line 0x21 [0x11] u)) ∧
      (rep ≤ 1 → open' →
        ∃ t, exec (.impressionOn .line pl) s = .next (answer .line 0x21 [0x00] t) ∧
          t.line.phase = .printing ∧ t.line.cause = .impressionOn ∧
          t.line.fill = pr.ringLength ∧ t.line.mark = 0 ∧
          t.line.run =
            (if count = 0 then none
             else some { base := count, current := count, repeats := rep == 1 }) ∧
          t.line.heatInhibit = false ∧ t.line.permit = true ∧ KeepsPlant u t)

/-- IMPRESSION_OFF (R89, R92): PRINTING becomes DRAINING with cause IMPRESSION_OFF and the drain count
N - p_y; where the ring holds no PRINTED record the drain ends at once (R93). In every other phase OK and no
effect. -/
def Obligations.ImpressionOff : Prop :=
  ∀ s : State,
    let u := frameTaken .line s
    (u.line.phase ≠ .printing →
      exec (.impressionOff .line []) s = .next (answer .line 0x22 [0x00] u)) ∧
    ∀ pr, u.prof.committed = some pr → u.line.phase = .printing →
      ∃ t, exec (.impressionOff .line []) s = .next (answer .line 0x22 [0x00] t) ∧
        KeepsPlant u t ∧ t.line.fill = 0 ∧ t.line.run = none ∧
        t.line.permit = (t.line.phase == .ready) ∧
        (∀ (py : Nat) (r : SegRecord), u.ring.records[py]? = some r → r.kind = .printed →
          (∀ q < py, ∀ x, u.ring.records[q]? = some x → x.kind ≠ .printed) → py < pr.ringLength →
          t.line.phase = .draining ∧ t.line.cause = .impressionOff ∧
          t.line.drain = pr.ringLength - py) ∧
        ((∀ r ∈ u.ring.records, r.kind ≠ .printed) →
          (t.line.phase = .ready ∨ t.line.phase = .heating) ∧ t.line.drain = 0)

/-- The fill, run and drain counts and the excess-speed test at an ADVANCE (R90 to R93, R96), on the phase
unit's part of the step, which `AdvanceStep` puts into the command. A run that ends with no PRINTED record in
the ring ends its drain at once (R93). Which of the fill and the run counts first is log 29's choice and is
not stated here. -/
def Obligations.CountsAtAdvance : Prop :=
  ∀ s : State,
    (∀ (pr : Profile) (ceiling : Nat),
      let t := excessTest pr ceiling s
      let tooFast := min ceiling s.line.speedGrant + pr.speedTol < s.motion.vMeas
      (s.line.phase.heated = false → t = s) ∧
      (s.line.phase.heated → tooFast → s.line.excess.isSome → t = s) ∧
      (s.line.phase.heated → tooFast → s.line.excess = none →
        t = s.setLine { s.line with excess := some (pr.excessGrace * 1000) }) ∧
      (s.line.phase.heated → ¬tooFast → t = s.setLine { s.line with excess := none })) ∧
    (s.counted = false → fillStep s = s ∧ runStep s = s) ∧
    (s.line.fill = 0 → fillStep s = s) ∧ (s.line.run = none → runStep s = s) ∧
    (s.counted = true → 1 < s.line.fill →
      fillStep s = s.setLine { s.line with fill := s.line.fill - 1 }) ∧
    (s.counted = true → s.line.fill = 1 →
      (fillStep s).line = { s.line with fill := 0 } ∧
      (fillStep s).log = (logAppend (.filled s.motion.vMeas) s).log ∧
      (fillStep s).env = envelopeOf (s.setLine { s.line with fill := 0 })) ∧
    (∀ r, s.line.run = some r → s.counted = true →
      (1 < r.current →
        runStep s = s.setLine { s.line with run := some { r with current := r.current - 1 } }) ∧
      (r.current ≤ 1 → r.repeats = true →
        (runStep s).line =
          { s.line with
            run := some { r with current := r.base }, mark := min 65535 (s.line.mark + 1) } ∧
        (runStep s).log = (logAppend (.runMark (min 65535 (s.line.mark + 1))) s).log ∧
        Notice.runMark.inSet ((runStep s).port .line).pendingSet = true) ∧
      (r.current ≤ 1 → r.repeats = false → s.line.phase = .printing → s.drainNow ≠ 0 →
        (runStep s).line.phase = .draining ∧ (runStep s).line.cause = .runEnd ∧
        (runStep s).line.run = none ∧ (runStep s).line.drain = s.drainNow ∧
        Notice.runMark.inSet ((runStep s).port .line).pendingSet = true) ∧
      (r.current ≤ 1 → r.repeats = false → s.line.phase = .printing → s.drainNow = 0 →
        DrainEndsAtOnce .runEnd s s (runStep s) ∧
        Notice.runMark.inSet ((runStep s).port .line).pendingSet = true)) ∧
    (s.line.phase ≠ .draining ∨ s.drained = false ∨ s.line.drain = 0 → drainStep s = s) ∧
    (s.line.phase = .draining → s.drained = true → 1 < s.line.drain →
      drainStep s = s.setLine { s.line with drain := s.line.drain - 1 }) ∧
    (s.line.phase = .draining → s.drained = true → s.line.drain = 1 →
      (drainStep s).line.drain = 0 ∧
      (s.isReady = true →
        (drainStep s).line.phase = .ready ∧ (drainStep s).line.cause = .drainDone ∧
        (drainStep s).line.ready = .holds) ∧
      (s.isReady = false →
        (drainStep s).line.phase = .heating ∧ (drainStep s).line.cause = .drainDone ∧
        (drainStep s).line.ready = .fails))

/-- The grace expiries: a stall grace expiry sets the idle flag and ends PRINTING with cause STALL (R95); an
excess expiry raises EXCESS at every port and ends PRINTING with cause EXCESS (R97). With no PRINTED record in
the ring the drain ends at once (R93). A stopped timer has no expiry (log 4). -/
def Obligations.GraceExpiries : Prop :=
  ∀ s : State,
    (s.line.stallGrace = none → exec .stallGraceExpiry s = .next s) ∧
    (s.line.excess = none → exec .excessTimerExpiry s = .next s) ∧
    (s.line.stallGrace.isSome → s.line.phase.heated →
      ∃ t, exec .stallGraceExpiry s = .next t ∧ KeepsPlant s t ∧ t.line.stallGrace = none ∧
        t.env.idle = true ∧
        (∀ pr, s.prof.committed = some pr →
          t.env.heatCaps = pr.dryers.map (fun e => min e.setMax pr.idleTemp)) ∧
        (s.line.phase = .printing → s.drainNow ≠ 0 →
          t.line.phase = .draining ∧ t.line.cause = .stall ∧ t.line.drain = s.drainNow) ∧
        (s.line.phase = .printing → s.drainNow = 0 → s.arb.list = [] →
          DrainEndsAtOnce .stall s s t) ∧
        (s.line.phase ≠ .printing → s.arb.list = [] → t.line.phase = s.line.phase)) ∧
    (s.line.excess.isSome → s.line.phase ≠ .printing →
      exec .excessTimerExpiry s =
        .next (raiseAll .excess (s.setLine { s.line with excess := none }))) ∧
    (s.line.excess.isSome → s.line.phase = .printing → s.drainNow ≠ 0 →
      ∃ t, exec .excessTimerExpiry s = .next t ∧ KeepsPlant s t ∧
        t.line.phase = .draining ∧ t.line.cause = .excess ∧ t.line.drain = s.drainNow ∧
        t.line.excess = none ∧ s.line.speedGrant ≤ t.line.speedGrant ∧
        ∀ p, Notice.excess.inSet (t.port p).pendingSet = true) ∧
    (s.line.excess.isSome → s.line.phase = .printing → s.drainNow = 0 →
      ∃ t, exec .excessTimerExpiry s = .next t ∧ KeepsPlant s t ∧ t.line.excess = none ∧
        (∀ p, Notice.excess.inSet (t.port p).pendingSet = true) ∧
        (s.arb.list = [] → DrainEndsAtOnce .excess s s t))

/-- PURGE_START (R85) and COOL_DOWN (R100), in every phase. -/
def Obligations.PurgeStartAndCoolDown : Prop :=
  ∀ s : State,
    let u := frameTaken .dryer s
    let may := (∀ p, (u.port p).live = .active) ∧ (∀ d, (u.det d).latch = false) ∧
      u.prof.holder = none
    (u.line.phase ≠ .cold →
      exec (.purgeStart .dryer []) s = .next (answer .dryer 0x33 [0x10] u)) ∧
    (u.line.phase = .cold → ¬may →
      exec (.purgeStart .dryer []) s = .next (answer .dryer 0x33 [0x11] u)) ∧
    (u.line.phase = .cold → may →
      ∃ t, exec (.purgeStart .dryer []) s = .next (answer .dryer 0x33 [0x00] t) ∧
        t.line.phase = .purge ∧ t.line.cause = .purgeStart ∧ t.line.purgeTimer = some 100000 ∧
        t.line.purgeVolume = 0 ∧ t.line.heatInhibit = true ∧ t.line.permit = false ∧
        KeepsPlant u t) ∧
    (u.line.phase ≠ .heating → u.line.phase ≠ .ready →
      exec (.coolDown .dryer []) s = .next (answer .dryer 0x34 [0x10] u)) ∧
    (u.line.phase = .heating ∨ u.line.phase = .ready →
      ∃ t, exec (.coolDown .dryer []) s = .next (answer .dryer 0x34 [0x00] t) ∧
        t.line.phase = .cold ∧ t.line.cause = .coolDown ∧ t.line.heatInhibit = true ∧
        t.line.permit = false ∧ (∀ c ∈ t.env.heatCaps, c = 0) ∧
        (u.arb.list = [] →
          t.line.setpoints = u.line.setpoints ∧ t.line.exhaust = u.line.exhaust ∧
          t.line.speedGrant = u.line.speedGrant) ∧
        KeepsPlant u t)

/-- BREAK_CLEAR (R121, R122) and SAFE_CLEAR (R104), in every phase: the latches are cleared, the VOID
records become BLANK at AMBIENT (R25), and the phase becomes PURGE. -/
def Obligations.ClearsLeadToPurge : Prop :=
  ∀ s : State,
    let u := frameTaken .line s
    let clear := ∀ d, (u.det d).armed = true → (u.det d).signal = false
    (u.line.phase ≠ .webBreak → ¬clear →
      exec (.breakClear .line []) s = .next (answer .line 0x26 [0x11] u)) ∧
    (u.line.phase ≠ .webBreak → clear →
      exec (.breakClear .line []) s = .next (answer .line 0x26 [0x00] (clearLatches u))) ∧
    (u.line.phase = .webBreak → ¬(clear ∧ u.motion.state = .still) →
      exec (.breakClear .line []) s = .next (answer .line 0x26 [0x11] u)) ∧
    (∀ pr, u.prof.committed = some pr → u.line.phase = .webBreak → clear → u.motion.state = .still →
      ∃ t, exec (.breakClear .line []) s = .next (answer .line 0x26 [0x00] t) ∧
        t.line.phase = .purge ∧ t.line.cause = .breakClear ∧ t.line.purgeTimer = some 100000 ∧
        t.line.purgeVolume = 0 ∧ t.brk.pb = none ∧
        (∀ d, (t.det d) = { u.det d with latch := false }) ∧
        t.ring = { u.ring with records := u.ring.records.map (restoreRecord pr) } ∧
        t.motion = u.motion ∧ t.prof = u.prof ∧ t.load.flow = u.load.flow ∧
        t.log = (logAppend (.phase .webBreak .purge .breakClear u.motion.vMeas) u).log) ∧
    (u.prof.committed = none ∨ u.line.phase ≠ .safe →
      exec (.safeClear .line []) s = .next (answer .line 0x27 [0x10] u)) ∧
    (∀ pr, u.prof.committed = some pr → u.line.phase = .safe →
      let may := u.line.estopActive = false ∧ u.motion.state = .still ∧
        (∀ p, (u.port p).live = .active) ∧ u.load.peak < pr.loadWarn ∧
        ∀ d, (u.det d).latch = false
      (¬may → exec (.safeClear .line []) s = .next (answer .line 0x27 [0x11] u)) ∧
      (may → ∃ t, exec (.safeClear .line []) s = .next (answer .line 0x27 [0x00] t) ∧
        t.line.phase = .purge ∧ t.line.cause = .safeClear ∧ t.line.purgeTimer = some 100000 ∧
        t.line.purgeVolume = 0 ∧ t.brk = u.brk ∧
        t.ring = { u.ring with records := u.ring.records.map (restoreRecord pr) } ∧
        t.motion = u.motion ∧ t.prof = u.prof ∧ t.load.flow = u.load.flow))

/-! ### Breaks -/

/-- An arrival, the signal of a detector armed before and after going from inactive to active, by the phase
it finds (R112 to R119). In a heated phase: BREAK, p_b, the void and the strand operation, the abort, the
armed freeze, the PHASE and the BREAK record. In BREAK upstream of p_b: p_b, void and strand at the new
place. Elsewhere the latch, the record and the notice alone. No arrival, no effect beyond the entry. -/
def Obligations.ArrivalsByPhase : Prop :=
  ∀ (pr : Profile) (d : Detector) (e : DetectorEntry) (s : State), s.prof.committed = some pr →
    let t := changeDetector d e s
    let arrives := (s.det d).armed = true ∧ e.armed = true ∧ (s.det d).signal = false ∧
      e.signal = true
    let p := e.place
    let n := voidCount p s.ring.records
    let cut := { s.ring with records := strandTo pr p (voidFrom p s.ring.records) }
    (¬arrives → t = s.putDet d e) ∧
    (arrives → s.line.phase.heated →
      t.line.phase = .webBreak ∧ t.line.cause = .webBreak ∧ t.line.heatInhibit = true ∧
      t.line.permit = false ∧ t.brk.pb = some p ∧ t.ring = cut ∧
      t.arb.list = [] ∧ t.arb.inFlight = none ∧ AbortedOutcomes s t ∧ AbortNoticed s t ∧
      t.load.floorDuty = 256 ∧ t.env.ceiling = 0 ∧
      t.line.speedGrant = s.line.speedGrant ∧ t.line.setpoints = s.line.setpoints ∧
      t.line.exhaust = s.line.exhaust ∧ t.motion = s.motion ∧ t.prof = s.prof ∧
      t.log =
        (logAppend (.webBreak d p n false)
          (armFreeze pr
            (logAppend (.phase s.line.phase .webBreak .webBreak s.motion.vMeas) s))).log) ∧
    (arrives → s.line.phase = .webBreak →
      (∀ b, s.brk.pb = some b → p < b →
        t.brk.pb = some p ∧ t.ring = cut ∧ t.line = s.line ∧ t.arb = s.arb ∧
        t.log = (logAppend (.webBreak d p n true) s).log) ∧
      (∀ b, s.brk.pb = some b → b ≤ p →
        t.brk.pb = some b ∧ t.ring = s.ring ∧ t.line = s.line ∧ t.arb = s.arb ∧
        t.log = (logAppend (.webBreak d p 0 false) s).log)) ∧
    (arrives → s.line.phase.heated = false → s.line.phase ≠ .webBreak →
      t.brk.pb = s.brk.pb ∧ t.ring = s.ring ∧ t.line = s.line ∧ t.arb = s.arb ∧
      t.load = s.load ∧ t.env = s.env ∧ t.motion = s.motion ∧ t.prof = s.prof ∧
      t.log = (logAppend (.webBreak d p 0 false) s).log) ∧
    (arrives → (∀ x, t.det x = if x = d then { e with latch := true } else s.det x) ∧
      ∀ q, Notice.webBreak.inSet (t.port q).pendingSet = true)

/-- DETECTOR_LEVEL_CHANGE replaces the input level (R110); DETECTOR_SET writes armed flag and POLARITY and
keeps POSITION and latch (R111). Either is an arrival as `ArrivalsByPhase` says. -/
def Obligations.DetectorCommands : Prop :=
  (∀ (d : Detector) (l : Level) (s : State), exec (.detectorLevelChange d l) s =
    .next (changeDetector d { s.det d with level := l } s)) ∧
  ∀ (pl : List Byte) (s : State), pl.length = 3 →
    let u := frameTaken .line s
    let n := fieldAt pl 0 1
    let a := fieldAt pl 1 1
    let pol := fieldAt pl 2 1
    (u.prof.committed = none →
      exec (.detectorSet .line pl) s = .next (answer .line 0x25 [0x10] u)) ∧
    (u.prof.committed ≠ none → 3 < n ∨ 1 < a ∨ 1 < pol →
      exec (.detectorSet .line pl) s = .next (answer .line 0x25 [0x12] u)) ∧
    ∀ d, u.prof.committed ≠ none → detectorNumber d = n → a ≤ 1 → pol ≤ 1 →
      exec (.detectorSet .line pl) s =
        .next (answer .line 0x25 [0x00]
          (changeDetector d
            { u.det d with
              armed := a == 1
              cfg := some
                { position := (u.det d).place,
                  polarity := if pol = 1 then .activeHigh else .activeLow } } u))

/-! ### Change arbiter -/

/-- The changes taken at once (R125 to R128): the value written and the reply of each of the four
requests. -/
def Obligations.ChangesTakenAtOnce : Prop :=
  ∀ (pr : Profile) (pl : List Byte) (s : State),
    (let u := frameTaken .line s
     let target := fieldAt pl 0 2
     let asked := fieldAt pl 2 2
     let rate := min (max asked 1) pr.rampRateMax
     let v := max target pr.crawlLimit
     u.prof.committed = some pr → pl.length = 4 → target ≤ u.line.speedGrant →
      ∃ t, TakenAtOnce .speed v u t ∧
        exec (.speedRamp .line pl) s =
          .next (answer .line 0x20
            (changeReply (if v ≠ target ∨ rate ≠ asked then .clamped else .ok) v 0 .atOnce
              (u16 rate)) t)) ∧
    (let u := frameTaken .dryer s
     let target := fieldAt pl 0 2
     u.prof.committed = some pr → pl.length = 2 →
      u.line.exhaust ≤ target ∨ u.line.phase.heated = false →
      ∃ t, TakenAtOnce .exhaust target u t ∧
        exec (.exhaustTarget .dryer pl) s =
          .next (answer .dryer 0x32 (changeReply .ok target 0 .atOnce []) t)) ∧
    (let u := frameTaken .dryer s
     let z := fieldAt pl 0 1
     let asked := signed16 (fieldAt pl 1 2)
     ∀ e, u.prof.committed = some pr → pl.length = 3 → pr.dryers[z]? = some e →
      (let v := min (max asked e.setMin) e.setMax
       u.line.phase = .cold ∨ u.line.phase = .purge →
        ∃ t, TakenAtOnce (.zone z) v u t ∧
          exec (.zoneSetpoint .dryer pl) s =
            .next (answer .dryer 0x31
              (changeReply (if v ≠ asked then .clamped else .ok) v 0 .atOnce []) t)) ∧
      (let v := min (max asked e.setMin) (min e.setMax (u.env.heatCaps.getD z 0))
       u.line.phase.heated → v = u.line.setpoints.getD z 0 →
        ∃ t, TakenAtOnce (.zone z) v u t ∧
          exec (.zoneSetpoint .dryer pl) s =
            .next (answer .dryer 0x31
              (changeReply (if v ≠ asked then .clamped else .ok) v 0 .atOnce []) t))) ∧
    (let u := frameTaken .chill s
     let c := fieldAt pl 0 1
     let asked := signed16 (fieldAt pl 1 2)
     ∀ e, u.prof.committed = some pr → pl.length = 3 → pr.dryers.length ≤ c →
      pr.used[c]? = some e →
      let v := min (max asked e.setMin) e.setMax
      u.line.phase.heated = false ∨ v ≤ u.line.setpoints.getD c 0 →
        ∃ t, TakenAtOnce (.chill c) v u t ∧
          exec (.chillSetpoint .chill pl) s =
            .next (answer .chill 0x41
              (changeReply (if v ≠ asked then .clamped else .ok) v 0 .atOnce []) t))

/-- The changes of the unsafe direction (R126, R129): the tests in their order, the admitted value, and
the admission, which `AdmissionPlacesEntry` describes. -/
def Obligations.UnsafeChangesAreAdmitted : Prop :=
  ∀ (pr : Profile) (pl : List Byte) (s : State),
    (let u := frameTaken .line s
     let target := fieldAt pl 0 2
     let asked := fieldAt pl 2 2
     let rate := min (max asked 1) pr.rampRateMax
     let v := min target u.env.ceiling
     pl.length = 4 →
      (u.prof.committed = none →
        exec (.speedRamp .line pl) s = .next (answer .line 0x20 [0x10] u)) ∧
      (u.prof.committed = some pr → u.line.speedGrant < target →
        (u.line.phase = .webBreak ∨ u.line.phase = .safe →
          exec (.speedRamp .line pl) s = .next (answer .line 0x20 [0x10] u)) ∧
        (u.line.phase ≠ .webBreak → u.line.phase ≠ .safe → v ≤ u.line.speedGrant →
          exec (.speedRamp .line pl) s =
            .next (answer .line 0x20 (changeReply .clamped v 0 .notAdmitted (u16 rate)) u)) ∧
        (u.line.phase ≠ .webBreak → u.line.phase ≠ .safe → u.line.speedGrant < v →
          exec (.speedRamp .line pl) s =
            .next (admissionAnswer .line 0x20 pr .speed v
              (decide (v ≠ target ∨ rate ≠ asked)) (u16 rate) u)))) ∧
    (let u := frameTaken .dryer s
     let target := fieldAt pl 0 2
     pl.length = 2 →
      (u.prof.committed = none →
        exec (.exhaustTarget .dryer pl) s = .next (answer .dryer 0x32 [0x10] u)) ∧
      (u.prof.committed = some pr → target < u.line.exhaust → u.line.phase.heated →
        exec (.exhaustTarget .dryer pl) s =
          .next (admissionAnswer .dryer 0x32 pr .exhaust target false [] u))) ∧
    (let u := frameTaken .dryer s
     let z := fieldAt pl 0 1
     let asked := signed16 (fieldAt pl 1 2)
     pl.length = 3 →
      (u.prof.committed = none →
        exec (.zoneSetpoint .dryer pl) s = .next (answer .dryer 0x31 [0x10] u)) ∧
      (u.prof.committed = some pr → pr.dryers.length ≤ z →
        exec (.zoneSetpoint .dryer pl) s = .next (answer .dryer 0x31 [0x12] u)) ∧
      (u.prof.committed = some pr → z < pr.dryers.length →
        u.line.phase = .webBreak ∨ u.line.phase = .safe →
        exec (.zoneSetpoint .dryer pl) s = .next (answer .dryer 0x31 [0x10] u)) ∧
      ∀ e, u.prof.committed = some pr → pr.dryers[z]? = some e → u.line.phase.heated →
        let v := min (max asked e.setMin) (min e.setMax (u.env.heatCaps.getD z 0))
        v ≠ u.line.setpoints.getD z 0 →
          exec (.zoneSetpoint .dryer pl) s =
            .next (admissionAnswer .dryer 0x31 pr (.zone z) v (decide (v ≠ asked)) [] u)) ∧
    (let u := frameTaken .chill s
     let c := fieldAt pl 0 1
     let asked := signed16 (fieldAt pl 1 2)
     pl.length = 3 →
      (u.prof.committed = none →
        exec (.chillSetpoint .chill pl) s = .next (answer .chill 0x41 [0x10] u)) ∧
      (u.prof.committed = some pr → c < pr.dryers.length ∨ pr.used.length ≤ c →
        exec (.chillSetpoint .chill pl) s = .next (answer .chill 0x41 [0x12] u)) ∧
      ∀ e, u.prof.committed = some pr → pr.dryers.length ≤ c → pr.used[c]? = some e →
        u.line.phase.heated →
        let v := min (max asked e.setMin) e.setMax
        u.line.setpoints.getD c 0 < v →
          exec (.chillSetpoint .chill pl) s =
            .next (admissionAnswer .chill 0x41 pr (.chill c) v (decide (v ≠ asked)) [] u))

/-- Where an admitted change goes (R130 to R132): a SPEED change to the SPEED change in flight; one whose
key waits already supersedes it in place; any other to the end of the list, refused where it holds 8
entries. HELD is a ZONE decrease in DRAINING. That the answer for the change in flight carries that change's
arrival number is the model's choice (log 30). -/
def Obligations.AdmissionPlacesEntry : Prop :=
  ∀ (pr : Profile) (key : ChangeKey) (v : Int) (s : State),
    let rides := key = .speed ∧ ∃ c, s.arb.inFlight = some c ∧ c.key = .speed
    let held := s.line.phase = .draining ∧ ∃ z, key = .zone z ∧ v < s.line.setpoints.getD z 0
    (∀ c, s.arb.inFlight = some c → key = .speed → c.key = .speed →
      placeChange pr key v s =
        some
          { state := s.setArb { s.arb with inFlight := some { c with value := v } }
            result := .queued, arrival := c.arrival, disposition := .inFlight }) ∧
    (¬rides → (∀ e ∈ s.arb.list, e.key ≠ key) → 8 ≤ s.arb.list.length →
      placeChange pr key v s = none) ∧
    (¬rides → (∀ e ∈ s.arb.list, e.key ≠ key) → s.arb.list.length < 8 →
      ∃ a st tm, placeChange pr key v s = some a ∧ a.arrival = s.arb.arrival ∧
        (held → st = .held ∧ tm = none ∧ a.result = .held) ∧
        (¬held → st = .queued ∧ tm = some (pr.pendingLimit * 1000) ∧ a.result = .queued) ∧
        a.state = arbiterPass (s.setArb
          { s.arb with
            list := s.arb.list ++
              [{ key := key, value := v, arrival := s.arb.arrival, status := st, timer := tm,
                 ahead := false }]
            arrival := s.arb.arrival + 1 }) ∧
        (s.arb.inFlight.isSome → a.disposition = if st = .held then .held else .waiting) ∧
        ((∀ e ∈ a.state.arb.list, e.key ≠ key) → a.disposition = .granted)) ∧
    ∀ i e, ¬rides → s.arb.list[i]? = some e → e.key = key →
      (∀ j x, s.arb.list[j]? = some x → x.key = key → j = i) →
      ∃ a st tm, placeChange pr key v s = some a ∧ a.arrival = e.arrival ∧
        (held → st = .held ∧ tm = none ∧ a.result = .held) ∧
        (¬held → st = .queued ∧ a.result = .queued ∧
          (e.status = .queued → tm = e.timer) ∧
          (e.status = .held → tm = some (pr.pendingLimit * 1000))) ∧
        a.state = arbiterPass (s.setArb
          { s.arb with
            list := s.arb.list.set i { e with value := v, status := st, timer := tm } })

/-- An arbitration pass (R136, R138, R139): with a change in flight or no QUEUED entry with headroom it
does nothing; else it grants, among the entries with headroom, one of the highest PRIORITY, the
first in the list among equals, and writes the granted value to its record; the entry leaves the list, and at
a SPEED grant the entries ahead of it are noted (R134). The headroom of each kind is that of R136, in the heated
phases and in COLD and PURGE, and for CHILL the greatest passing value of R137. -/
def Obligations.PassGrantsBest : Prop :=
  ∀ (pr : Profile) (s : State), s.prof.committed = some pr →
    let may := fun (i : Nat) (e : PendingEntry) (g : Int) =>
      s.arb.list[i]? = some e ∧ e.status = .queued ∧ headroom pr s e.key e.value = some g
    let prio := fun e : PendingEntry => (pr.ports.get (keyOwner e.key)).priority
    (s.arb.inFlight ≠ none → arbiterPass s = s) ∧
    ((∀ i e g, ¬may i e g) → arbiterPass s = s) ∧
    (s.arb.inFlight = none → (∃ i e g, may i e g) →
      ∃ i e g, may i e g ∧
        (∀ j x y, may j x y → prio x < prio e ∨ (prio x = prio e ∧ i ≤ j)) ∧
        (arbiterPass s).arb.inFlight =
          some { key := e.key, value := e.value, arrival := e.arrival, granted := g } ∧
        (arbiterPass s).arb.settleCount = 0 ∧
        (arbiterPass s).arb.settleTimer = some (pr.settleLimit * 1000) ∧
        (e.key ≠ .speed → (arbiterPass s).arb.list = s.arb.list.eraseIdx i) ∧
        (e.key = .speed → (arbiterPass s).arb.list =
          (s.arb.list.take i).map (fun x => { x with ahead := true }) ++
            (s.arb.list.drop (i + 1)).map (fun x => { x with ahead := false })) ∧
        (arbiterPass s).arb.outcomes = s.arb.outcomes ∧ (arbiterPass s).arb.arrival = s.arb.arrival ∧
        (arbiterPass s).line.speedGrant = (s.line.putRecord e.key g).speedGrant ∧
        (arbiterPass s).line.exhaust = (s.line.putRecord e.key g).exhaust ∧
        (arbiterPass s).line.setpoints = (s.line.putRecord e.key g).setpoints ∧
        KeepsPlant s (arbiterPass s)) ∧
    -- headroom in the heated phases
    (∀ v : Int,
      let g := min (min v (s.line.speedGrant + pr.rampStep)) (s.env.ceiling : Int)
      headroom pr s .speed v = if (s.line.speedGrant : Int) < g then some g else none) ∧
    (s.line.phase.heated →
      (∀ z e v, pr.dryers[z]? = some e →
        let w := min (max v e.setMin) (min e.setMax (s.env.heatCaps.getD z 0))
        let sp := s.line.setpoints.getD z 0
        headroom pr s (.zone z) v =
          if (sp < w ∧ s.load.peak < pr.loadHold) ∨ w < sp then some w else none) ∧
      (∀ v : Int,
        let bare := max v
          ((s.load.flow * s.load.peak + pr.loadHold - 1) / pr.loadHold : Nat)
        let f := if s.line.phase = .heating then bare else max bare (pr.flowReady : Int)
        headroom pr s .exhaust v =
          if f < s.line.exhaust ∧ ¬(s.load.flow = 0 ∧ ∃ r ∈ s.ring.release, 0 < r) then some f
          else none) ∧
      ∀ c e v, pr.dryers.length ≤ c → pr.used[c]? = some e →
        let w := min (max v e.setMin) e.setMax
        let sp := s.line.setpoints.getD c 0
        let t := if s.motion.state = .moving ∧ 0 < s.motion.tStep then s.motion.tStep else pr.tRef
        let passes := fun x : Int => ∀ start, s.env.tIn = some start →
          chillTrial pr (rollsOf pr (s.ring.inputs.set c x)) t start ≤ pr.setLimit
        (∀ g, headroom pr s (.chill c) v = some g ↔
          sp < g ∧ g ≤ w ∧ passes g ∧ ∀ x, g < x → x ≤ w → ¬passes x) ∧
        ((∀ x, sp < x → x ≤ w → ¬passes x) → headroom pr s (.chill c) v = none) ∧
        (s.env.tIn = none → sp < w → headroom pr s (.chill c) v = some w)) ∧
    -- headroom in COLD and PURGE
    (s.line.phase = .cold ∨ s.line.phase = .purge →
      (∀ v : Int, headroom pr s .exhaust v = if v ≠ s.line.exhaust then some v else none) ∧
      ∀ z e v, pr.used[z]? = some e →
        let w := min (max v e.setMin) e.setMax
        let open' := if w ≠ s.line.setpoints.getD z 0 then some w else none
        headroom pr s (.zone z) v = open' ∧ headroom pr s (.chill z) v = open')

/-- The ends a timer or the owner gives a change (R133, R135, R141, R147): TIMED_OUT with the granted value,
NO_HEADROOM with the admitted one, CANCELLED; the outcome is stored at the owner and CHANGE_DONE raised
there. A stopped settle or waiting timer has no expiry (log 4). A zone out of range of a kind the port does
not own is answered REFUSED_RANGE (log 12). -/
def Obligations.EndsOfChanges : Prop :=
  ∀ s : State,
    (s.arb.settleTimer = none → exec .settleTimerExpiry s = .next s) ∧
    (∀ c, s.arb.inFlight = some c → s.arb.settleTimer.isSome →
      ∃ t, exec .settleTimerExpiry s = .next t ∧ KeepsPlant s t ∧
        t.arb.outcomes.get (keyOwner c.key) =
          some { key := c.key, arrival := c.arrival, value := c.granted, reason := .timedOut } ∧
        Notice.changeDone.inSet (t.port (keyOwner c.key)).pendingSet = true ∧
        (s.arb.list = [] →
          t.line = s.line ∧ t.arb.inFlight = none ∧ t.arb.settleCount = 0 ∧
          t.arb.settleTimer = none)) ∧
    (∀ key, (∀ e ∈ s.arb.list, e.key = key → e.status = .held) →
      exec (.waitingTimerExpiry key) s = .next s) ∧
    (∀ i e, s.arb.list[i]? = some e → e.status = .queued →
      (∀ j x, s.arb.list[j]? = some x → x.key = e.key → j = i) →
      ∃ t, exec (.waitingTimerExpiry e.key) s = .next t ∧ ArbiterOnly s t ∧
        t.arb.list = s.arb.list.eraseIdx i ∧ t.arb.inFlight = s.arb.inFlight ∧
        t.arb.outcomes = s.arb.outcomes.set (keyOwner e.key)
          (some { key := e.key, arrival := e.arrival, value := e.value, reason := .noHeadroom }) ∧
        Notice.changeDone.inSet (t.port (keyOwner e.key)).pendingSet = true) ∧
    ∀ (p : Port) (kind zone : Byte),
      let u := frameTaken p s
      let named := changeKeyOf kind.toNat zone.toNat
      (u.prof.committed = none →
        exec (.changeCancel p [kind, zone]) s = .next (answer p 0x0A [0x10] u)) ∧
      ∀ pr, u.prof.committed = some pr →
        (named = none ∨ ((kind = 3 ∨ kind = 4) ∧ pr.used.length ≤ zone.toNat) →
          exec (.changeCancel p [kind, zone]) s = .next (answer p 0x0A [0x12] u)) ∧
        ∀ key, named = some key → (kind = 3 ∨ kind = 4 → zone.toNat < pr.used.length) →
          (keyOwner key ≠ p →
            exec (.changeCancel p [kind, zone]) s = .next (answer p 0x0A [0x00, 0x00] u)) ∧
          (keyOwner key = p →
            let waiting := if u.arb.list.any (fun e => e.key == key) then 1 else 0
            let flying := if u.arb.inFlight.map (·.key) = some key then 1 else 0
            ∃ t, exec (.changeCancel p [kind, zone]) s =
                .next (answer p 0x0A [0x00, BitVec.ofNat 8 (waiting + flying)] t) ∧
              KeepsPlant u t ∧ (∀ e ∈ t.arb.list, e.key ≠ key) ∧
              (∀ c, t.arb.inFlight = some c → c.key ≠ key) ∧
              (0 < waiting + flying → ∃ o, t.arb.outcomes.get p = some o ∧ o.key = key ∧
                o.reason = .cancelled))

/-- Observations and settling (R140, R142, R144): what observes a change in flight, the settle counter,
and at a settle the end SETTLED, or for SPEED the next increment, the yield, or the end with the remainder
dropped. A competitor is a QUEUED entry of another port with priority at or above LINE's and with headroom; the
remainder goes behind the last entry noted ahead of it, else to the head (R134). -/
def Obligations.ObservationsSettle : Prop :=
  ∀ (pr : Profile) (s : State) (c : InFlight) (o : Observation), s.prof.committed = some pr →
    s.arb.inFlight = some c →
    let seen := observes pr s o c.key
    let t := settleObserve o s
    let target := c.value ≤ s.line.speedGrant
    let g := min (min c.value (s.line.speedGrant + pr.rampStep)) (s.env.ceiling : Int)
    let grows := (s.line.speedGrant : Int) < g
    (competes pr s = true ↔ ∃ e ∈ s.arb.list,
      e.status = .queued ∧ keyOwner e.key ≠ .line ∧
        (pr.ports.get .line).priority ≤ (pr.ports.get (keyOwner e.key)).priority ∧
        ∃ h, headroom pr s e.key e.value = some h) ∧
    (∀ (r : PendingEntry) (l : List PendingEntry), (∀ e ∈ l, e.ahead = false) →
      insertRemainder r l = r :: l) ∧
    (∀ (r e : PendingEntry) (l m : List PendingEntry), e.ahead = true →
      (∀ x ∈ m, x.ahead = false) → insertRemainder r (l ++ e :: m) = l ++ e :: r :: m) ∧
    (c.key = .speed → seen =
      if o = .advance then
        some (decide (((s.motion.vMeas : Int) - s.line.speedGrant).natAbs ≤ pr.speedTol))
      else none) ∧
    (c.key = .exhaust → seen =
      if o = .zoneReport then
        some (decide (((s.load.flow : Int) - s.line.exhaust).natAbs ≤ pr.flowTol))
      else none) ∧
    (∀ z e, c.key = .zone z → pr.used[z]? = some e → seen =
      if o = .zoneReport then
        some (decide ((s.ring.inputs.getD z 0 - s.line.setpoints.getD z 0).natAbs ≤ e.tol))
      else none) ∧
    (∀ z e, c.key = .chill z → pr.used[z]? = some e → seen =
      if o = .chillReport then
        some (decide ((s.ring.inputs.getD z 0 - s.line.setpoints.getD z 0).natAbs ≤ e.tol))
      else none) ∧
    (seen = none → t = s) ∧
    (seen = some false → t = s.setArb { s.arb with settleCount := 0 }) ∧
    (seen = some true → s.arb.settleCount + 1 < pr.settleCount → s.arb.settleCount < 255 →
      t = s.setArb { s.arb with settleCount := s.arb.settleCount + 1 }) ∧
    (seen = some true → pr.settleCount ≤ s.arb.settleCount + 1 →
      let ends := t.arb.outcomes.get (keyOwner c.key) =
          some { key := c.key, arrival := c.arrival, value := c.granted, reason := .settled } ∧
        Notice.changeDone.inSet (t.port (keyOwner c.key)).pendingSet = true ∧
        (s.arb.list = [] →
          t.arb.inFlight = none ∧ t.arb.settleCount = 0 ∧ t.arb.settleTimer = none ∧
          t.line = s.line)
      let yields := competes pr s = true ∨ ¬grows
      KeepsPlant s t ∧ (c.key ≠ .speed → ends) ∧ (c.key = .speed → target → ends) ∧
      (c.key = .speed → ¬target → yields → 8 ≤ s.arb.list.length →
        t.arb.outcomes.get .line =
          some { key := c.key, arrival := c.arrival, value := c.granted, reason := .settled }) ∧
      (c.key = .speed → ¬target → ¬yields →
        t.arb.inFlight = some { c with granted := g } ∧ t.arb.settleCount = 0 ∧
        t.arb.settleTimer = some (pr.settleLimit * 1000) ∧ t.line.speedGrant = g.toNat ∧
        t.arb.list = s.arb.list ∧ t.arb.outcomes = s.arb.outcomes) ∧
      (c.key = .speed → ¬target → yields → s.arb.list.length < 8 →
        t.arb.outcomes = s.arb.outcomes ∧
        t = arbiterPass (s.setArb
          { s.arb with
            list := insertRemainder
              { key := c.key, value := c.value, arrival := c.arrival, status := .queued,
                timer := some (pr.pendingLimit * 1000), ahead := false } s.arb.list
            inFlight := none, settleCount := 0, settleTimer := none })))

/-! ### Transit log -/

/-- A record handed to the log (R151, R152, R156 to R159): dropped and counted in FROZEN; else stamped and
placed as the newest, the oldest of 240 discarded, with skips for the ports that had not read it; in
ARMED the remainder falls, or the log freezes. -/
def Obligations.LogAppendRule : Prop :=
  ∀ (b : LogBody) (s : State),
    let t := logAppend b s
    let full := 240 ≤ s.log.records.length
    let lost := fun p => full ∧ s.log.unread.get p = s.log.records.length
    (s.log.freeze = .frozen →
      t = s.setLog { s.log with drops := min 65535 (s.log.drops + 1) }) ∧
    (s.log.freeze ≠ .frozen →
      LogOnly s t ∧ t.log.drops = s.log.drops ∧
      (full → t.log.records = s.log.records.drop 1 ++ [{ body := b, stamp := s.time.ms }]) ∧
      (¬full → t.log.records = s.log.records ++ [{ body := b, stamp := s.time.ms }]) ∧
      (∀ p, lost p →
        t.log.unread.get p = s.log.unread.get p ∧
        t.log.skip.get p = min 255 (s.log.skip.get p + 1) ∧
        Notice.logSkip.inSet (t.port p).pendingSet = true) ∧
      (∀ p, ¬lost p →
        t.log.unread.get p = s.log.unread.get p + 1 ∧ t.log.skip.get p = s.log.skip.get p) ∧
      (∀ p, Notice.logWatermark.inSet (t.port p).holding =
        decide (s.watermark p ≤ t.log.unread.get p)) ∧
      (s.log.freeze = .opened → t.log.freeze = .opened) ∧
      (∀ r, s.log.freeze = .armed (r + 1) → t.log.freeze = .armed r) ∧
      (s.log.freeze = .armed 0 →
        t.log.freeze = .frozen ∧
          ∀ p, Notice.logFrozen.inSet (t.port p).pendingSet = true))

/-- LOG_READ (R154) and LOG_RELEASE (R160): the reply with its records of 16 bytes (R187), the cursor, the
skip count; the end of a freeze with its RELEASED record. -/
def Obligations.LogReadAndRelease : Prop :=
  ∀ (p : Port) (maximum : Byte) (s : State),
    let u := frameTaken p s
    let n := min maximum.toNat (u.log.unread.get p)
    (∀ r : LogRecord, r.bytes = logLayout r.body ++ be 3 r.stamp.toNat) ∧
    (maximum = 0 ∨ 14 < maximum.toNat →
      exec (.logRead p [maximum]) s = .next (answer p 0x05 [0x12] u)) ∧
    (maximum ≠ 0 → maximum.toNat ≤ 14 →
      ∃ t, exec (.logRead p [maximum]) s =
          .next (answer p 0x05
            ([0x00] ++ u8 (u.log.skip.get p) ++ u8 n ++ u8 (u.log.unread.get p - n) ++
              u8 u.log.records.length ++ u8 u.log.freeze.code ++ u8 u.log.freeze.remainder ++
              u16 u.log.drops ++
              ((u.log.records.drop (u.log.records.length - u.log.unread.get p)).take n).flatMap
                LogRecord.bytes) t) ∧
        LogOnly u t ∧ t.log.records = u.log.records ∧ t.log.freeze = u.log.freeze ∧
        t.log.drops = u.log.drops ∧
        (∀ q, t.log.unread.get q =
          if q = p then u.log.unread.get p - n else u.log.unread.get q) ∧
        ∀ q, t.log.skip.get q = if q = p then 0 else u.log.skip.get q) ∧
    (u.log.freeze = .opened →
      exec (.logRelease p []) s = .next (answer p 0x06 ([0x00] ++ u8 0 ++ u16 0) u)) ∧
    (u.log.freeze ≠ .opened →
      let drops := if u.log.freeze = .frozen then u.log.drops else 0
      ∃ t, exec (.logRelease p []) s =
          .next (answer p 0x06 ([0x00] ++ u8 u.log.freeze.code ++ u16 drops) t) ∧
        LogOnly u t ∧ t.log.freeze = .opened ∧ t.log.drops = 0 ∧
        t.log.records =
          (logAppend (.released p u.log.drops)
            (u.setLog { u.log with freeze := .opened })).log.records)

/-! ### Ports, frames, notices -/

/-- Liveness (R172 to R174): what a valid frame's arrival does before its request is tested, and the loss of
an ACTIVE port at its window timer's expiry. LINE lost under LIMIT ends PRINTING (R105), and with no PRINTED
record in the ring the drain at once (R93). A stopped window timer has no expiry (log 4). -/
def Obligations.PortLiveness : Prop :=
  ∀ (p : Port) (s : State),
    let ms := match s.prof.committed with
      | some pr => (pr.ports.get p).window
      | none => 500
    ((s.port p).live ≠ .lost →
      frameTaken p s = s.modPort p (fun q =>
        { q with rx := .hunt, gap := none, live := .active, window := some (ms * 1000) })) ∧
    ((s.port p).live = .lost →
      let u := frameTaken p s
      (u.port p).live = .active ∧ (u.port p).window = some (ms * 1000) ∧
      (u.port p).rx = .hunt ∧ (u.port p).gap = none ∧
      u.load.floorDuty = floorDuty u ∧ u.env = envelopeOf u ∧
      (s.arb.list = [] →
        u.log = (logAppend (.port p true (s.port p).action) s).log ∧ u.line = s.line ∧
          u.arb = s.arb)) ∧
    ((s.port p).window = none → exec (.windowTimerExpiry p) s = .next s) ∧
    ((s.port p).window.isSome → (s.port p).live = .active →
      ∃ t, exec (.windowTimerExpiry p) s = .next t ∧
        (t.port p).live = .lost ∧ (t.port p).window = none ∧
        (∀ q, q ≠ p → (t.port q).live = (s.port q).live ∧
          Notice.portLost.inSet (t.port q).pendingSet = true) ∧
        (∀ e ∈ t.arb.list, keyOwner e.key ≠ p) ∧
        (∀ c, t.arb.inFlight = some c → keyOwner c.key ≠ p) ∧
        ((∃ e ∈ s.arb.list, keyOwner e.key = p) ∨
            (∃ c, s.arb.inFlight = some c ∧ keyOwner c.key = p) →
          Notice.changeDone.inSet (t.port p).pendingSet = true) ∧
        t.prof.holder = (if s.prof.holder = some p then none else s.prof.holder) ∧
        t.load.floorDuty = floorDuty t ∧ t.env = envelopeOf t ∧
        t.ring = s.ring ∧ t.load.flow = s.load.flow ∧ t.motion = s.motion ∧
        ((s.port p).action = .note → (∀ e ∈ s.arb.list, keyOwner e.key = p) →
          t.line = s.line ∧ t.log = (logAppend (.port p false .note) s).log) ∧
        ((s.port p).action = .safe → s.line.phase ≠ .unconfigured →
          t.line.phase = .safe ∧
          (s.line.phase ≠ .safe →
            t.line.cause = .portLoss ∧
            t.log =
              (logAppend (.phase s.line.phase .safe .portLoss s.motion.vMeas)
                (logAppend (.port p false .safe) s)).log)) ∧
        ((s.port p).action = .limit → p = .line → s.line.phase = .printing → s.drainNow ≠ 0 →
          t.line.phase = .draining ∧ t.line.cause = .lineLost ∧ t.line.drain = s.drainNow) ∧
        ((s.port p).action = .limit → p = .line → s.line.phase = .printing → s.drainNow = 0 →
          (∀ e ∈ s.arb.list, keyOwner e.key = p) →
            DrainEndsAtOnce .lineLost s (logAppend (.port p false .limit) s) t) ∧
        ((s.port p).action = .limit → p ≠ .line ∨ s.line.phase ≠ .printing →
          (∀ e ∈ s.arb.list, keyOwner e.key = p) → t.line = s.line))

/-- The bytes of a frame, sync byte to CRC, arriving one by one in HUNT are the command the frame's kind
names, with its payload: the byte-level receiver (R165, R184) and the frame commands agree on every kind and
every payload a length byte can announce. -/
def Obligations.ReceivedFrameIsCommand : Prop :=
  ∀ (p : Port) (kind : Byte) (pl : List Byte) (s : State), (s.port p).rx = .hunt →
    pl.length ≤ 240 →
    execAll (bytesOn p (frameBytes kind pl)) s = exec (frameInstr p kind pl) s

/-- Frames that take no request (R166, R167, R170): a failed frame, answered BAD_FRAME once kind and
length are known; a kind that names no request; a request on a port that may not send it; a payload of the
wrong length. That BAD_FRAME is the byte at which the frame fails is log 20, that a stopped gap timer has no
expiry log 4, and that a ZONE_REPORT of odd or short length has the wrong length log 12: the model's choices. -/
def Obligations.FramesThatTakeNoRequest : Prop :=
  (∀ (p : Port) (x : RxByte) (s : State), exec (.badFrame p x) s = exec (.byteReceived p x) s) ∧
  (∀ (p : Port) (b : Byte) (s : State), (s.port p).rx = .hunt →
    exec (.byteReceived p .framingError) s = .next s ∧
    (b ≠ 0xA5 → exec (.byteReceived p (.data b)) s = .next s) ∧
    exec (.byteReceived p (.data 0xA5)) s =
      .next (s.modPort p (fun q => { q with rx := .kind 0xFFFF, gap := some 2000 }))) ∧
  (∀ (p : Port) (s : State),
    let idle := s.modPort p (fun q => { q with rx := .hunt, gap := none })
    ((∃ crc, (s.port p).rx = .kind crc) ∨ (∃ k crc, (s.port p).rx = .length k crc) →
      exec (.byteReceived p .framingError) s = .next idle ∧
      ((s.port p).gap.isSome → exec (.gapTimerExpiry p) s = .next idle)) ∧
    (∀ k, (∃ n got crc, (s.port p).rx = .payload k n got crc) ∨
        (∃ pl crc hi, (s.port p).rx = .check k pl crc hi) →
      exec (.byteReceived p .framingError) s = .next (answer p k [0x20] idle) ∧
      ((s.port p).gap.isSome → exec (.gapTimerExpiry p) s = .next (answer p k [0x20] idle))) ∧
    (∀ k crc (b : Byte), (s.port p).rx = .length k crc → 240 < b.toNat →
      exec (.byteReceived p (.data b)) s = .next (answer p k [0x20] idle)) ∧
    (∀ k pl crc hi (b : Byte), (s.port p).rx = .check k pl crc (some hi) → hi ++ b ≠ crc →
      exec (.byteReceived p (.data b)) s = .next (answer p k [0x20] idle)) ∧
    ((s.port p).gap = none → exec (.gapTimerExpiry p) s = .next s)) ∧
  (∀ (p : Port) (kind : Byte) (pl : List Byte) (s : State), (∀ r : Request, r.code ≠ kind) →
    exec (.unknownKind p kind pl) s = .next (answer p kind [0x21] (frameTaken p s))) ∧
  ∀ (r : Request) (p : Port) (pl : List Byte) (s : State),
    (acceptedOn r p = false →
      exec (requestInstr r p pl) s = .next (answer p r.code [0x13] (frameTaken p s))) ∧
    (acceptedOn r p = true → lengthFits r pl.length = false →
      exec (requestInstr r p pl) s = .next (answer p r.code [0x12] (frameTaken p s)))

/-- A reply's way (R164, R168, R169): the line is high while nothing is sent and after a reset, and carries a
byte as a low start bit, eight data bits least significant first and a high stop bit, from which the receiver
takes the byte; a low stop bit is a framing error (the levels of start and data bits and the microsecond at
which a bit begins are log 19's). An idle transmitter starts a reply and is busy for its k + 5 byte times of
ten bits at 230,400 baud, rounded up to a microsecond (log 8); a busy one keeps it as the waiting reply in
place of any other; the end of a transmission starts the waiting reply or leaves the transmitter idle. -/
def Obligations.ReplyTransmission : Prop :=
  (∀ b : Byte, (byteLevels b).length = 10 ∧ (byteLevels b)[0]? = some .low ∧
    (∀ i < 8, (byteLevels b)[i + 1]? = some (if b.getLsbD i then .high else .low)) ∧
    (byteLevels b)[9]? = some .high ∧ rxOfLevels (byteLevels b) = .data b) ∧
  (∀ l : List Level, l[9]? = some .low → rxOfLevels l = .framingError) ∧
  (∀ (l : InputLines) (s : State), ∃ t, exec (.reset l) s = .next t ∧
    ∀ p, (t.port p).txd = .high) ∧
  (∀ q : PortState,
    (q.tx = none → q.txd = .high) ∧
    ∀ r left, q.tx = some r → q.txTimer = some left →
      let bytes := frameBytes r.kind r.payload
      let whole := ((r.payload.length + 5) * 10 * 1000000 + 230399) / 230400
      let bit := (whole - left) * 230400 / 1000000
      (∀ b, bytes[bit / 10]? = some b → (byteLevels b)[bit % 10]? = some q.txd) ∧
      (bytes.length ≤ bit / 10 → q.txd = .high)) ∧
  ∀ (p : Port) (kind : Byte) (pl : List Byte) (s : State),
    let r : Reply := { kind := kind ||| 0x80, payload := pl }
    ((s.port p).tx = none →
      ∃ us, answer p kind pl s = s.modPort p (fun q => { q with tx := some r, txTimer := some us }) ∧
        (pl.length + 5) * 10 * 1000000 ≤ us * 230400 ∧
        us * 230400 < (pl.length + 5) * 10 * 1000000 + 230400) ∧
    ((s.port p).tx ≠ none →
      answer p kind pl s = s.modPort p (fun q => { q with waiting := some r })) ∧
    (∀ w x, (s.port p).tx = some x → (s.port p).waiting = some w →
      ∃ us, exec (.replyTransmissionEnd p) s =
        .next (s.modPort p (fun q =>
          { q with tx := some w, txTimer := some us, waiting := none })) ∧
        (w.payload.length + 5) * 10 * 1000000 ≤ us * 230400 ∧
        us * 230400 < (w.payload.length + 5) * 10 * 1000000 + 230400) ∧
    ((s.port p).waiting = none →
      exec (.replyTransmissionEnd p) s =
        .next (s.modPort p (fun q => { q with tx := none, txTimer := none })))

/-- Notices (R176 to R181): a raise, a NOTICE_READ, a NOTICE_MAP and the end of a NOTE pulse, in both
modes. That a NOTICE_MAP written while a pulse runs ends it is the model's reading (log 13), and that the end
of a pulse that does not run changes nothing its choice (log 4). -/
def Obligations.NoticesAndNoteLine : Prop :=
  (∀ (k : Notice) (p : Port) (s : State),
    let q := s.port p
    let t := raiseAt k p s
    (k.inSet q.pendingSet = true → t = s) ∧
    (k.inSet q.pendingSet = false →
      NoticesOnly s t ∧ (t.port p).pendingSet = q.pendingSet ||| k.mask ∧
      (q.mode = .pulsed → k.inSet q.map = true →
        (t.port p).note = true ∧ (t.port p).pulse = some 20) ∧
      (q.mode = .pulsed → k.inSet q.map = false →
        (t.port p).note = q.note ∧ (t.port p).pulse = q.pulse) ∧
      (q.mode = .latched →
        (t.port p).note = ((q.pendingSet ||| k.mask) &&& q.map != 0)))) ∧
  (∀ (p : Port) (s : State),
    let u := frameTaken p s
    let q := u.port p
    ∃ t, exec (.noticeRead p []) s =
        .next (answer p 0x07 ([0x00] ++ u16 q.pendingSet.toNat ++ u16 q.holding.toNat) t) ∧
      NoticesOnly u t ∧ (∀ x, x ≠ p → t.port x = u.port x) ∧
      (t.port p).pendingSet = q.holding ∧ (t.port p).holding = q.holding ∧
      (q.mode = .latched → (t.port p).note = (q.holding &&& q.map != 0)) ∧
      (q.mode = .pulsed → q.holding &&& q.map ≠ 0 →
        (t.port p).note = true ∧ (t.port p).pulse = some 20) ∧
      (q.mode = .pulsed → q.holding &&& q.map = 0 →
        (t.port p).note = q.note ∧ (t.port p).pulse = q.pulse)) ∧
  (∀ (p : Port) (hi lo mode : Byte) (s : State),
    let u := frameTaken p s
    let map : NoticeSet := hi ++ lo
    (1 < mode.toNat →
      exec (.noticeMap p [hi, lo, mode]) s = .next (answer p 0x08 [0x12] u)) ∧
    (mode = 0 →
      exec (.noticeMap p [hi, lo, mode]) s =
        .next (answer p 0x08 [0x00, hi, lo, 0x00]
          (u.modPort p (fun q =>
            { q with
              map := map, mode := .latched, pulse := none,
              note := (q.pendingSet &&& map != 0) })))) ∧
    (mode = 1 →
      exec (.noticeMap p [hi, lo, mode]) s =
        .next (answer p 0x08 [0x00, hi, lo, 0x01]
          (u.modPort p (fun q =>
            { q with map := map, mode := .pulsed, pulse := none, note := false }))))) ∧
  ∀ (p : Port) (s : State),
    ((s.port p).pulse = none → exec (.notePulseEnd p) s = .next s) ∧
    ((s.port p).pulse.isSome → (s.port p).mode = .pulsed →
      exec (.notePulseEnd p) s =
        .next (s.modPort p (fun q => { q with note := false, pulse := none })))

/-! ### Requests -/

/-- The reads that change nothing but the port's reply: PING and STATUS_READ (R171), ZONE_READ (R27),
RING_READ (R26), with the code values of R186 and every byte of the layouts of R185, R188 and R189; where a
field of the change in flight or of the last outcome is absent, its bytes are those of log 22. -/
def Obligations.ReadsChangeNothing : Prop :=
  ∀ (p : Port) (s : State),
    let u := frameTaken p s
    exec (.ping p []) s = .next (answer p 0x01 [0x00] u) ∧
    exec (.statusRead p []) s = .next (answer p 0x02 (statusPayload p u) u) ∧
    CodesOfFields ∧ statusPayload p u = statusLayout p u ∧ (statusPayload p u).length = 87 ∧
    (∀ r : SegRecord, (r.kind = .void ↔ r.heat = none) →
      r.bytes = segmentLayout r ∧ r.bytes.length = 12) ∧
    (∀ (a b : Byte), u.prof.committed = none →
      exec (.zoneRead p [a]) s = .next (answer p 0x03 [0x10] u) ∧
      exec (.ringRead p [a, b]) s = .next (answer p 0x04 [0x10] u)) ∧
    ∀ pr, u.prof.committed = some pr →
      (∀ z : Byte, pr.used.length ≤ z.toNat →
        exec (.zoneRead p [z]) s = .next (answer p 0x03 [0x12] u)) ∧
      (∀ (z : Byte) (e : ZoneItems), pr.used[z.toNat]? = some e →
        exec (.zoneRead p [z]) s =
          .next (answer p 0x03 ([0x00] ++ zoneBytes pr u z.toNat e) u) ∧
        zoneBytes pr u z.toNat e = zoneLayout pr u z.toNat e ∧
        (zoneBytes pr u z.toNat e).length = 26) ∧
      ∀ first count : Byte,
        let ok := 1 ≤ count.toNat ∧ count.toNat ≤ 12 ∧
          first.toNat + count.toNat ≤ pr.ringLength
        (¬ok → exec (.ringRead p [first, count]) s = .next (answer p 0x04 [0x12] u)) ∧
        (ok → exec (.ringRead p [first, count]) s =
          .next (answer p 0x04
            ([0x00, first, count] ++
              ((u.ring.records.drop first.toNat).take count.toNat).flatMap SegRecord.bytes) u))

/-- The entry settings SOLVENT_CHARGE and JOB_TAG (R9), and LOSS_ACTION with its lock (R175). That
REFUSED_LOCKED carries the action and no lock byte, and that the lock byte is 0x01, is the model's choice
(log 14); that the floor duty is set anew at a LOSS_ACTION is its inference (log 26). -/
def Obligations.SettingsAreWritten : Prop :=
  (∀ (hi lo : Byte) (s : State),
    let u := frameTaken .line s
    let asked := (hi ++ lo).toNat
    exec (.solventCharge .line [hi, lo]) s =
      .next (answer .line 0x23 ((if asked ≤ 60000 then [0x00] else [0x01]) ++ u16 (min asked 60000))
        (u.setRing { u.ring with charge := min asked 60000 }))) ∧
  (∀ (f hi lo : Byte) (s : State),
    let u := frameTaken .line s
    let tag := (hi ++ lo).toNat
    (f = 0 → exec (.jobTag .line [f, hi, lo]) s =
      .next (answer .line 0x24 [0x00] (u.setRing { u.ring with tag := none }))) ∧
    (f = 1 → 0 < tag → exec (.jobTag .line [f, hi, lo]) s =
      .next (answer .line 0x24 [0x00] (u.setRing { u.ring with tag := some tag }))) ∧
    (1 < f.toNat ∨ (f = 1 ∧ tag = 0) →
      exec (.jobTag .line [f, hi, lo]) s = .next (answer .line 0x24 [0x12] u))) ∧
  ∀ (p : Port) (a : Byte) (s : State),
    let u := frameTaken p s
    ((u.port p).lock = true → exec (.lossAction p [a]) s =
      .next (answer p 0x09 [0x16, BitVec.ofNat 8 (u.port p).action.code] u)) ∧
    ((u.port p).lock = false → 2 < a.toNat →
      exec (.lossAction p [a]) s = .next (answer p 0x09 [0x12] u)) ∧
    ((u.port p).lock = false → a.toNat ≤ 2 →
      ∃ t, exec (.lossAction p [a]) s = .next (answer p 0x09 [0x00, a, 0x01] t) ∧
        (t.port p).action.code = a.toNat ∧ (t.port p).lock = true ∧
        (∀ q, q ≠ p → (t.port q).link = (u.port q).link) ∧
        t.load.floorDuty = floorDuty t ∧ t.env = envelopeOf t ∧ t.ring = u.ring ∧
        t.motion = u.motion ∧ (u.arb.list = [] → t.line = u.line ∧ t.log = u.log))

/-- PROFILE_OPEN, PROFILE_ABANDON, PROFILE_WRITE and PROFILE_READ (R191 to R193, R197): the tests, the
replies, the staged table, the holder and the state code. The items, their ranges and their defaults are those
R190 prints: a write of an unnamed item or outside the range is refused, one within it is taken and changes
that item alone. A PROFILE_READ of a source above 1 is answered REFUSED_RANGE (log 12). -/
def Obligations.ProfileIsEdited : Prop :=
  (∀ x : Profile, x.zones.length = 8 → ItemsName x ∧
    (∀ id, itemSpec id = none → x.item id = none ∧ ∀ v, x.writeItem id v = none) ∧
    ∀ id i, itemSpec id = some i → (x.item id).isSome ∧
      ∀ v, (v < i.lo ∨ i.hi < v → x.writeItem id v = none) ∧
        (i.lo ≤ v → v ≤ i.hi → ∃ y, x.writeItem id v = some y ∧ y.zones.length = 8 ∧
          y.item id = some v ∧ ∀ k, k ≠ id → y.item k = x.item k)) ∧
  (∀ id, Profile.default.item id = (itemSpec id).map (·.value)) ∧
  ∀ (p : Port) (s : State),
    let u := frameTaken p s
    let opened := { u.prof with holder := some p, code := .staged }
    let dropped :=
      { u.prof with
        staged := (match u.prof.committed with
          | some pr => pr
          | none => .default),
        holder := none, code := if u.prof.committed.isSome then .valid else .none }
    (u.prof.holder = none →
      exec (.profileOpen p []) s =
        .next (answer p 0x10 ([0x00, 0x01] ++ u8 (portCode p)) (u.setProf opened)) ∧
      exec (.profileAbandon p []) s =
        .next (answer p 0x14 ([0x00] ++ u8 u.prof.code.code) u)) ∧
    (u.prof.holder = some p →
      exec (.profileOpen p []) s =
        .next (answer p 0x10 ([0x00] ++ u8 u.prof.code.code ++ u8 (portCode p)) u) ∧
      exec (.profileAbandon p []) s =
        .next (answer p 0x14 ([0x00] ++ u8 dropped.code.code) (u.setProf dropped))) ∧
    (∀ q, q ≠ p → u.prof.holder = some q →
      exec (.profileOpen p []) s =
        .next (answer p 0x10 ([0x14] ++ u8 u.prof.code.code ++ u8 (portCode q)) u) ∧
      exec (.profileAbandon p []) s = .next (answer p 0x14 [0x14] u)) ∧
    (∀ pl : List Byte, pl.length = 5 →
      let id := fieldAt pl 0 1
      let v := signed32 (fieldAt pl 1 4)
      (u.prof.holder = none →
        exec (.profileWrite p pl) s = .next (answer p 0x11 [0x11] u)) ∧
      (∀ q, q ≠ p → u.prof.holder = some q →
        exec (.profileWrite p pl) s = .next (answer p 0x11 [0x14] u)) ∧
      (u.prof.holder = some p → u.prof.staged.writeItem id v = none →
        exec (.profileWrite p pl) s = .next (answer p 0x11 [0x12] u)) ∧
      ∀ y, u.prof.holder = some p → u.prof.staged.writeItem id v = some y →
        exec (.profileWrite p pl) s =
          .next (answer p 0x11 ([0x00] ++ u8 id ++ i32 v)
            (u.setProf { u.prof with staged := y, code := .staged }))) ∧
    ∀ id source : Byte,
      let tail := u8 u.prof.code.code ++ u8 (optPortCode u.prof.holder) ++
        [u.prof.errorItem.getD 0]
      let read := fun x : Profile =>
        (x.item id.toNat = none →
          exec (.profileRead p [id, source]) s = .next (answer p 0x12 [0x12] u)) ∧
        ∀ v, x.item id.toNat = some v →
          exec (.profileRead p [id, source]) s =
            .next (answer p 0x12 ([0x00, id] ++ i32 v ++ tail) u)
      (source = 0 → read u.prof.staged) ∧
      (∀ pr, source = 1 → u.prof.committed = some pr → read pr) ∧
      (source = 1 → u.prof.committed = none →
        exec (.profileRead p [id, source]) s = .next (answer p 0x12 [0x10] u)) ∧
      (1 < source.toNat →
        exec (.profileRead p [id, source]) s = .next (answer p 0x12 [0x12] u))

/-- PROFILE_COMMIT (R194, R195): the tests in their order, and what a successful commit does to every
block. The item that fails is the least whose check of R194 fails. From UNCONFIGURED the PHASE records, with
v_meas 0, come before the PROFILE record; the changes standing end ABORTED (R146); the ports take their
WATERMARKs, and the level conditions are those of the new state. -/
def Obligations.CommitSetsEveryBlock : Prop :=
  ∀ (p : Port) (s : State),
    let u := frameTaken p s
    let may := u.line.phase = .unconfigured ∨ u.line.phase = .cold ∨ u.line.phase = .safe
    (¬may → exec (.profileCommit p []) s = .next (answer p 0x13 [0x10] u)) ∧
    (may → u.prof.holder = none →
      exec (.profileCommit p []) s = .next (answer p 0x13 [0x11] u)) ∧
    (∀ q, may → q ≠ p → u.prof.holder = some q →
      exec (.profileCommit p []) s = .next (answer p 0x13 [0x14] u)) ∧
    (∀ id, may → u.prof.holder = some p → u.prof.staged.firstFailure = some id →
      exec (.profileCommit p []) s =
        .next (answer p 0x13 ([0x11] ++ u8 id ++ [0x00, 0x03])
          (u.setProf
            { u.prof with code := .invalid, errorItem := some (BitVec.ofNat 8 id) }))) ∧
    (u.prof.staged.zones.length = 8 →
      (u.prof.staged.firstFailure = none ↔ ∀ id, ItemPasses u.prof.staged id) ∧
      ∀ id, u.prof.staged.firstFailure = some id ↔
        ¬ItemPasses u.prof.staged id ∧ ∀ k < id, ItemPasses u.prof.staged k) ∧
    (may → u.prof.holder = some p → u.prof.staged.firstFailure = none →
      let pr := u.prof.staged
      ∃ t, exec (.profileCommit p []) s =
          .next (answer p 0x13 ([0x00, 0x00] ++ u8 pr.ringLength ++ [0x02]) t) ∧
        t.prof =
          { committed := some pr, staged := pr, holder := none, code := .valid,
            errorItem := none } ∧
        t.arb.list = [] ∧ t.arb.inFlight = none ∧ t.arb.arrival = 0 ∧
        AbortedOutcomes u t ∧ AbortNoticed u t ∧
        t.ring.records.length = pr.ringLength ∧
        (∀ q < pr.ringLength, t.ring.records[q]? = some
          { seq := BitVec.ofNat 16 (pr.ringLength - 1 - q), kind := .blank, solvent := 0,
            heat := some { temp := pr.ambient, peak := pr.ambient }, stranded := false,
            tag := none }) ∧
        t.ring.entryCounter = BitVec.ofNat 16 pr.ringLength ∧
        t.ring.inputs = List.replicate pr.used.length pr.ambient ∧
        t.ring.release = List.replicate pr.dryers.length 0 ∧ t.ring.lastKind = .none ∧
        t.ring.charge = u.ring.charge ∧ t.ring.tag = u.ring.tag ∧
        t.motion =
          { u.motion with
            p := 0, d := 0, last := none, tStep := 0, vMeas := 0,
            stallTimer :=
              if u.motion.state = .moving then some (pr.stallLimit * 1000) else none,
            dwellTimer :=
              if u.motion.state = .still then some (pr.dwellInterval * 1000) else none } ∧
        t.load.flow = 0 ∧ t.load.loads = List.replicate pr.dryers.length 0 ∧
        t.load.peak = 0 ∧ t.load.peakZone = 0 ∧ t.load.tripCount = 0 ∧ t.load.fReq = 0 ∧
        t.load.baseDuty = 0 ∧ t.load.floorDuty = floorDuty t ∧
        t.env = envelopeOf t ∧ t.env.idle = false ∧
        t.line.setpoints = pr.used.map (·.setMin) ∧ t.line.exhaust = pr.flowFull ∧
        t.line.speedGrant = pr.crawlLimit ∧ t.line.fill = 0 ∧ t.line.drain = 0 ∧
        t.line.run = none ∧ t.line.mark = 0 ∧ t.line.ready = .fails ∧
        (u.line.phase ≠ .unconfigured → t.line.phase = u.line.phase ∧
          t.line.cause = u.line.cause) ∧
        (u.line.phase = .unconfigured → u.line.estopActive = false →
          t.line.phase = .cold ∧ t.line.cause = .commit) ∧
        (u.line.phase = .unconfigured → u.line.estopActive = true →
          t.line.phase = .safe ∧ t.line.cause = .estop) ∧
        (∀ d, t.det d =
          { cfg := some
              { position := (pr.detectors.get d).position,
                polarity := (pr.detectors.get d).polarity },
            armed := (pr.detectors.get d).armed, latch := false,
            level := (u.det d).level }) ∧
        t.brk.pb = none ∧ t.time = u.time ∧
        (u.line.phase ≠ .unconfigured →
          t.log = (logAppend (.profile p pr.ringLength u.line.phase) u).log) ∧
        (u.line.phase = .unconfigured → u.line.estopActive = false →
          t.log =
            (logAppend (.profile p pr.ringLength .cold)
              (logAppend (.phase .unconfigured .cold .commit 0) u)).log) ∧
        (u.line.phase = .unconfigured → u.line.estopActive = true →
          t.log =
            (logAppend (.profile p pr.ringLength .safe)
              (logAppend (.phase .cold .safe .estop 0)
                (logAppend (.phase .unconfigured .cold .commit 0) u))).log) ∧
        LevelBecomes .stall (u.motion.state == .still) u t ∧
        LevelBecomes .loadWarn (decide (pr.loadWarn = 0)) u t ∧
        LevelBecomes .loadTrip (decide (pr.loadTrip = 0)) u t ∧
        ∀ q, (t.port q).link =
            { (u.port q).link with watermark := (pr.ports.get q).watermark } ∧
          Notice.logWatermark.inSet (t.port q).holding =
            decide ((pr.ports.get q).watermark ≤ t.log.unread.get q))

/-- RESTART (R196), in every phase: what it sets in every block and what it keeps; the changes standing end
ABORTED (R146). -/
def Obligations.RestartClearsTheRun : Prop :=
  ∀ (p : Port) (s : State),
    let u := frameTaken p s
    (u.line.phase ≠ .unconfigured → u.line.phase ≠ .cold →
      exec (.restart p []) s = .next (answer p 0x15 [0x10] u)) ∧
    (u.line.phase = .unconfigured ∨ u.line.phase = .cold →
      ∃ t, exec (.restart p []) s = .next (answer p 0x15 [0x00] t) ∧
        t.arb.list = [] ∧ t.arb.inFlight = none ∧ t.arb.arrival = 0 ∧ AbortedOutcomes u t ∧
        (∀ pr, u.prof.committed = some pr →
          t.ring.records = rebuiltRecords pr.ambient pr.ringLength ∧
          t.ring.entryCounter = BitVec.ofNat 16 pr.ringLength ∧
          t.ring.inputs = u.ring.inputs ∧
          t.ring.release = List.replicate pr.dryers.length 0 ∧
          t.load.loads = List.replicate pr.dryers.length 0 ∧
          t.line.speedGrant = pr.crawlLimit) ∧
        (u.prof.committed = none →
          t.ring.records = [] ∧ t.load.loads = [] ∧ t.line.speedGrant = 0) ∧
        t.ring.lastKind = .none ∧ t.ring.charge = u.ring.charge ∧ t.ring.tag = u.ring.tag ∧
        t.load.flow = u.load.flow ∧ t.load.peak = 0 ∧ t.load.tripCount = 0 ∧
        t.load.fReq = 0 ∧ t.load.baseDuty = 0 ∧ t.load.floorDuty = floorDuty t ∧
        t.env = envelopeOf t ∧ t.env.idle = false ∧
        t.line.phase = u.line.phase ∧ t.line.cause = u.line.cause ∧ t.line.fill = 0 ∧
        t.line.drain = 0 ∧ t.line.run = none ∧ t.line.mark = 0 ∧ t.line.ready = .fails ∧
        t.line.purgeVolume = 0 ∧ t.line.setpoints = u.line.setpoints ∧
        t.line.exhaust = u.line.exhaust ∧
        (∀ d, t.det d = { u.det d with latch := false }) ∧
        t.log =
          { records :=
              [{ body := .restart p u.log.records.length u.log.drops, stamp := u.time.ms }],
            unread := { line := 1, dryer := 1, chill := 1 },
            skip := { line := 0, dryer := 0, chill := 0 }, freeze := .opened, drops := 0 } ∧
        t.motion = u.motion ∧ t.prof = u.prof ∧ t.time = u.time ∧
        (∀ q, (t.port q).link = (u.port q).link ∧
          (t.port q).pendingSet = (t.port q).holding))

/-- ZONE_REPORT and CHILL_REPORT (R4, R5, R44, R48, R78, R86): a report with the wrong number of values, or
without a profile, is refused whole; an accepted one writes its values clamped into -400 to 3500, a
ZONE_REPORT also F with the loads and load conditions that follow (R49), the ready test is evaluated, and the
change in flight is observed: an EXHAUST or ZONE change by a ZONE_REPORT, a CHILL change by a CHILL_REPORT
(R140). -/
def Obligations.ReportsAreTaken : Prop :=
  ∀ (pl : List Byte) (s : State),
    (let u := frameTaken .dryer s
     let values := signedValues (pl.drop 2)
     let code : Byte := if ∃ v ∈ values, v < -400 ∨ 3500 < v then 0x01 else 0x00
     2 ≤ pl.length → pl.length % 2 = 0 →
      (u.prof.committed = none →
        exec (.zoneReport .dryer pl) s = .next (answer .dryer 0x30 [0x10] u)) ∧
      ∀ pr, u.prof.committed = some pr →
        (values.length ≠ pr.dryers.length →
          exec (.zoneReport .dryer pl) s = .next (answer .dryer 0x30 [0x12] u)) ∧
        (values.length = pr.dryers.length →
          let high := u.line.phase.heated = true ∧
            ∃ (z : Nat) (e : ZoneItems) (v : Int), pr.dryers[z]? = some e ∧ values[z]? = some v ∧
              heatCap pr u.line.phase u.env.idle e + e.tol < min (max v (-400)) 3500
          ∃ t, exec (.zoneReport .dryer pl) s = .next (answer .dryer 0x30 [code] t) ∧
            t.ring =
              { u.ring with
                inputs := values.map (fun v => min (max v (-400)) 3500) ++
                  u.ring.inputs.drop pr.dryers.length } ∧
            t.load.flow = fieldAt pl 0 2 ∧ LoadsAgree pr t ∧ DemandAgrees pr t ∧
            t.load.tripCount = u.load.tripCount ∧ t.load.floorDuty = floorDuty t ∧
            t.env = envelopeOf t ∧ t.motion = u.motion ∧ t.prof = u.prof ∧ t.brk = u.brk ∧
            LevelBecomes .loadWarn (decide (pr.loadWarn ≤ t.load.peak)) u t ∧
            LevelBecomes .loadTrip (decide (pr.loadTrip ≤ t.load.peak)) u t ∧
            (∀ c, u.arb.inFlight = some c →
              (c.key = .exhaust → Observed pr
                (some (decide (((t.load.flow : Int) - u.line.exhaust).natAbs ≤ pr.flowTol))) c u t) ∧
              (∀ z e, c.key = .zone z → pr.used[z]? = some e → Observed pr
                (some (decide
                  ((t.ring.inputs.getD z 0 - u.line.setpoints.getD z 0).natAbs ≤ e.tol))) c u t) ∧
              (c.key = .speed ∨ (∃ z, c.key = .chill z) → Observed pr none c u t)) ∧
            (high → ∀ q, Notice.zoneHigh.inSet (t.port q).pendingSet = true) ∧
            (¬high → ∀ q, Notice.zoneHigh.inSet (t.port q).pendingSet =
              Notice.zoneHigh.inSet (u.port q).pendingSet) ∧
            (u.arb.list = [] →
              (u.line.phase = .heating ∨ u.line.phase = .ready →
                t.line.phase = if readyTest pr t then .ready else .heating) ∧
              (u.line.phase ≠ .heating → u.line.phase ≠ .ready →
                t.line.phase = u.line.phase)))) ∧
    (let u := frameTaken .chill s
     let values := signedValues pl
     let code : Byte := if ∃ v ∈ values, v < -400 ∨ 3500 < v then 0x01 else 0x00
     pl.length % 2 = 0 →
      (u.prof.committed = none →
        exec (.chillReport .chill pl) s = .next (answer .chill 0x40 [0x10] u)) ∧
      ∀ pr, u.prof.committed = some pr →
        (values.length ≠ pr.chills.length →
          exec (.chillReport .chill pl) s = .next (answer .chill 0x40 [0x12] u)) ∧
        (values.length = pr.chills.length →
          ∃ t, exec (.chillReport .chill pl) s = .next (answer .chill 0x40 [code] t) ∧
            t.ring =
              { u.ring with
                inputs := u.ring.inputs.take pr.dryers.length ++
                  values.map (fun v => min (max v (-400)) 3500) } ∧
            t.load.flow = u.load.flow ∧ t.env = envelopeOf t ∧ t.motion = u.motion ∧
            t.prof = u.prof ∧ t.brk = u.brk ∧
            (∀ c, u.arb.inFlight = some c →
              (∀ z e, c.key = .chill z → pr.used[z]? = some e → Observed pr
                (some (decide
                  ((t.ring.inputs.getD z 0 - u.line.setpoints.getD z 0).natAbs ≤ e.tol))) c u t) ∧
              (c.key = .speed ∨ c.key = .exhaust ∨ (∃ z, c.key = .zone z) →
                Observed pr none c u t)) ∧
            (u.arb.list = [] →
              (u.line.phase = .heating ∨ u.line.phase = .ready →
                t.line.phase = if readyTest pr t then .ready else .heating) ∧
              (u.line.phase ≠ .heating → u.line.phase ≠ .ready →
                t.line.phase = u.line.phase))))
end

