-- ==== Sys2Proof/Laws/State.lean ====
section
/-! SUPPORT. What each field of the state is after each of its updates, and the accessors of the
per-port and per-detector values. -/
namespace Sys2Proof.Machine

/-! ### Per port, per detector -/

@[simp] theorem PerPort.get_set_same {α : Type} (x : PerPort α) (p : Port) (v : α) :
    (x.set p v).get p = v := by cases p <;> rfl

@[simp] theorem PerPort.get_set_other {α : Type} (x : PerPort α) {p q : Port} (v : α) (h : q ≠ p) :
    (x.set p v).get q = x.get q := by cases p <;> cases q <;> first | rfl | exact absurd rfl h

@[simp] theorem PerPort.get_of {α : Type} (f : Port → α) (p : Port) :
    (PerPort.of f).get p = f p := by cases p <;> rfl

theorem PerPort.ext_get {α : Type} {x y : PerPort α} (h : ∀ p, x.get p = y.get p) : x = y := by
  cases x; cases y
  have h1 := h .line
  have h2 := h .dryer
  have h3 := h .chill
  simp_all [PerPort.get]

@[simp] theorem PerDetector.get_set_same {α : Type} (x : PerDetector α) (d : Detector) (v : α) :
    (x.set d v).get d = v := by cases d <;> rfl

@[simp] theorem PerDetector.get_set_other {α : Type} (x : PerDetector α) {d e : Detector} (v : α)
    (h : e ≠ d) : (x.set d v).get e = x.get e := by
  cases d <;> cases e <;> first | rfl | exact absurd rfl h

@[simp] theorem PerDetector.get_of {α : Type} (f : Detector → α) (d : Detector) :
    (PerDetector.of f).get d = f d := by cases d <;> rfl

/-! ### Updates of the state -/

@[simp] theorem setTime_time (s : State) (x : TimeBase) : (s.setTime x).time = x := rfl
@[simp] theorem setTime_motion (s : State) (x : TimeBase) : (s.setTime x).motion = s.motion := rfl
@[simp] theorem setTime_ring (s : State) (x : TimeBase) : (s.setTime x).ring = s.ring := rfl
@[simp] theorem setTime_load (s : State) (x : TimeBase) : (s.setTime x).load = s.load := rfl
@[simp] theorem setTime_pwm (s : State) (x : TimeBase) : (s.setTime x).pwm = s.pwm := rfl
@[simp] theorem setTime_env (s : State) (x : TimeBase) : (s.setTime x).env = s.env := rfl
@[simp] theorem setTime_line (s : State) (x : TimeBase) : (s.setTime x).line = s.line := rfl
@[simp] theorem setTime_brk (s : State) (x : TimeBase) : (s.setTime x).brk = s.brk := rfl
@[simp] theorem setTime_arb (s : State) (x : TimeBase) : (s.setTime x).arb = s.arb := rfl
@[simp] theorem setTime_log (s : State) (x : TimeBase) : (s.setTime x).log = s.log := rfl
@[simp] theorem setTime_ports (s : State) (x : TimeBase) : (s.setTime x).ports = s.ports := rfl
@[simp] theorem setTime_prof (s : State) (x : TimeBase) : (s.setTime x).prof = s.prof := rfl
@[simp] theorem setTime_pending (s : State) (x : TimeBase) : (s.setTime x).pending = s.pending := rfl
@[simp] theorem setTime_freeCount (s : State) (x : TimeBase) : (s.setTime x).freeCount = s.freeCount := rfl

@[simp] theorem setMotion_motion (s : State) (x : Motion) : (s.setMotion x).motion = x := rfl
@[simp] theorem setMotion_time (s : State) (x : Motion) : (s.setMotion x).time = s.time := rfl
@[simp] theorem setMotion_ring (s : State) (x : Motion) : (s.setMotion x).ring = s.ring := rfl
@[simp] theorem setMotion_load (s : State) (x : Motion) : (s.setMotion x).load = s.load := rfl
@[simp] theorem setMotion_pwm (s : State) (x : Motion) : (s.setMotion x).pwm = s.pwm := rfl
@[simp] theorem setMotion_env (s : State) (x : Motion) : (s.setMotion x).env = s.env := rfl
@[simp] theorem setMotion_line (s : State) (x : Motion) : (s.setMotion x).line = s.line := rfl
@[simp] theorem setMotion_brk (s : State) (x : Motion) : (s.setMotion x).brk = s.brk := rfl
@[simp] theorem setMotion_arb (s : State) (x : Motion) : (s.setMotion x).arb = s.arb := rfl
@[simp] theorem setMotion_log (s : State) (x : Motion) : (s.setMotion x).log = s.log := rfl
@[simp] theorem setMotion_ports (s : State) (x : Motion) : (s.setMotion x).ports = s.ports := rfl
@[simp] theorem setMotion_prof (s : State) (x : Motion) : (s.setMotion x).prof = s.prof := rfl
@[simp] theorem setMotion_pending (s : State) (x : Motion) : (s.setMotion x).pending = s.pending := rfl
@[simp] theorem setMotion_freeCount (s : State) (x : Motion) : (s.setMotion x).freeCount = s.freeCount := rfl

@[simp] theorem setRing_ring (s : State) (x : Ring) : (s.setRing x).ring = x := rfl
@[simp] theorem setRing_time (s : State) (x : Ring) : (s.setRing x).time = s.time := rfl
@[simp] theorem setRing_motion (s : State) (x : Ring) : (s.setRing x).motion = s.motion := rfl
@[simp] theorem setRing_load (s : State) (x : Ring) : (s.setRing x).load = s.load := rfl
@[simp] theorem setRing_pwm (s : State) (x : Ring) : (s.setRing x).pwm = s.pwm := rfl
@[simp] theorem setRing_env (s : State) (x : Ring) : (s.setRing x).env = s.env := rfl
@[simp] theorem setRing_line (s : State) (x : Ring) : (s.setRing x).line = s.line := rfl
@[simp] theorem setRing_brk (s : State) (x : Ring) : (s.setRing x).brk = s.brk := rfl
@[simp] theorem setRing_arb (s : State) (x : Ring) : (s.setRing x).arb = s.arb := rfl
@[simp] theorem setRing_log (s : State) (x : Ring) : (s.setRing x).log = s.log := rfl
@[simp] theorem setRing_ports (s : State) (x : Ring) : (s.setRing x).ports = s.ports := rfl
@[simp] theorem setRing_prof (s : State) (x : Ring) : (s.setRing x).prof = s.prof := rfl
@[simp] theorem setRing_pending (s : State) (x : Ring) : (s.setRing x).pending = s.pending := rfl
@[simp] theorem setRing_freeCount (s : State) (x : Ring) : (s.setRing x).freeCount = s.freeCount := rfl

@[simp] theorem setLoad_load (s : State) (x : Load) : (s.setLoad x).load = x := rfl
@[simp] theorem setLoad_time (s : State) (x : Load) : (s.setLoad x).time = s.time := rfl
@[simp] theorem setLoad_motion (s : State) (x : Load) : (s.setLoad x).motion = s.motion := rfl
@[simp] theorem setLoad_ring (s : State) (x : Load) : (s.setLoad x).ring = s.ring := rfl
@[simp] theorem setLoad_pwm (s : State) (x : Load) : (s.setLoad x).pwm = s.pwm := rfl
@[simp] theorem setLoad_env (s : State) (x : Load) : (s.setLoad x).env = s.env := rfl
@[simp] theorem setLoad_line (s : State) (x : Load) : (s.setLoad x).line = s.line := rfl
@[simp] theorem setLoad_brk (s : State) (x : Load) : (s.setLoad x).brk = s.brk := rfl
@[simp] theorem setLoad_arb (s : State) (x : Load) : (s.setLoad x).arb = s.arb := rfl
@[simp] theorem setLoad_log (s : State) (x : Load) : (s.setLoad x).log = s.log := rfl
@[simp] theorem setLoad_ports (s : State) (x : Load) : (s.setLoad x).ports = s.ports := rfl
@[simp] theorem setLoad_prof (s : State) (x : Load) : (s.setLoad x).prof = s.prof := rfl
@[simp] theorem setLoad_pending (s : State) (x : Load) : (s.setLoad x).pending = s.pending := rfl
@[simp] theorem setLoad_freeCount (s : State) (x : Load) : (s.setLoad x).freeCount = s.freeCount := rfl

@[simp] theorem setPwm_pwm (s : State) (x : Pwm) : (s.setPwm x).pwm = x := rfl
@[simp] theorem setPwm_time (s : State) (x : Pwm) : (s.setPwm x).time = s.time := rfl
@[simp] theorem setPwm_motion (s : State) (x : Pwm) : (s.setPwm x).motion = s.motion := rfl
@[simp] theorem setPwm_ring (s : State) (x : Pwm) : (s.setPwm x).ring = s.ring := rfl
@[simp] theorem setPwm_load (s : State) (x : Pwm) : (s.setPwm x).load = s.load := rfl
@[simp] theorem setPwm_env (s : State) (x : Pwm) : (s.setPwm x).env = s.env := rfl
@[simp] theorem setPwm_line (s : State) (x : Pwm) : (s.setPwm x).line = s.line := rfl
@[simp] theorem setPwm_brk (s : State) (x : Pwm) : (s.setPwm x).brk = s.brk := rfl
@[simp] theorem setPwm_arb (s : State) (x : Pwm) : (s.setPwm x).arb = s.arb := rfl
@[simp] theorem setPwm_log (s : State) (x : Pwm) : (s.setPwm x).log = s.log := rfl
@[simp] theorem setPwm_ports (s : State) (x : Pwm) : (s.setPwm x).ports = s.ports := rfl
@[simp] theorem setPwm_prof (s : State) (x : Pwm) : (s.setPwm x).prof = s.prof := rfl
@[simp] theorem setPwm_pending (s : State) (x : Pwm) : (s.setPwm x).pending = s.pending := rfl
@[simp] theorem setPwm_freeCount (s : State) (x : Pwm) : (s.setPwm x).freeCount = s.freeCount := rfl

@[simp] theorem setEnv_env (s : State) (x : Envelope) : (s.setEnv x).env = x := rfl
@[simp] theorem setEnv_time (s : State) (x : Envelope) : (s.setEnv x).time = s.time := rfl
@[simp] theorem setEnv_motion (s : State) (x : Envelope) : (s.setEnv x).motion = s.motion := rfl
@[simp] theorem setEnv_ring (s : State) (x : Envelope) : (s.setEnv x).ring = s.ring := rfl
@[simp] theorem setEnv_load (s : State) (x : Envelope) : (s.setEnv x).load = s.load := rfl
@[simp] theorem setEnv_pwm (s : State) (x : Envelope) : (s.setEnv x).pwm = s.pwm := rfl
@[simp] theorem setEnv_line (s : State) (x : Envelope) : (s.setEnv x).line = s.line := rfl
@[simp] theorem setEnv_brk (s : State) (x : Envelope) : (s.setEnv x).brk = s.brk := rfl
@[simp] theorem setEnv_arb (s : State) (x : Envelope) : (s.setEnv x).arb = s.arb := rfl
@[simp] theorem setEnv_log (s : State) (x : Envelope) : (s.setEnv x).log = s.log := rfl
@[simp] theorem setEnv_ports (s : State) (x : Envelope) : (s.setEnv x).ports = s.ports := rfl
@[simp] theorem setEnv_prof (s : State) (x : Envelope) : (s.setEnv x).prof = s.prof := rfl
@[simp] theorem setEnv_pending (s : State) (x : Envelope) : (s.setEnv x).pending = s.pending := rfl
@[simp] theorem setEnv_freeCount (s : State) (x : Envelope) : (s.setEnv x).freeCount = s.freeCount := rfl

@[simp] theorem setLine_line (s : State) (x : PhaseUnit) : (s.setLine x).line = x := rfl
@[simp] theorem setLine_time (s : State) (x : PhaseUnit) : (s.setLine x).time = s.time := rfl
@[simp] theorem setLine_motion (s : State) (x : PhaseUnit) : (s.setLine x).motion = s.motion := rfl
@[simp] theorem setLine_ring (s : State) (x : PhaseUnit) : (s.setLine x).ring = s.ring := rfl
@[simp] theorem setLine_load (s : State) (x : PhaseUnit) : (s.setLine x).load = s.load := rfl
@[simp] theorem setLine_pwm (s : State) (x : PhaseUnit) : (s.setLine x).pwm = s.pwm := rfl
@[simp] theorem setLine_env (s : State) (x : PhaseUnit) : (s.setLine x).env = s.env := rfl
@[simp] theorem setLine_brk (s : State) (x : PhaseUnit) : (s.setLine x).brk = s.brk := rfl
@[simp] theorem setLine_arb (s : State) (x : PhaseUnit) : (s.setLine x).arb = s.arb := rfl
@[simp] theorem setLine_log (s : State) (x : PhaseUnit) : (s.setLine x).log = s.log := rfl
@[simp] theorem setLine_ports (s : State) (x : PhaseUnit) : (s.setLine x).ports = s.ports := rfl
@[simp] theorem setLine_prof (s : State) (x : PhaseUnit) : (s.setLine x).prof = s.prof := rfl
@[simp] theorem setLine_pending (s : State) (x : PhaseUnit) : (s.setLine x).pending = s.pending := rfl
@[simp] theorem setLine_freeCount (s : State) (x : PhaseUnit) : (s.setLine x).freeCount = s.freeCount := rfl

@[simp] theorem setBrk_brk (s : State) (x : BreakUnit) : (s.setBrk x).brk = x := rfl
@[simp] theorem setBrk_time (s : State) (x : BreakUnit) : (s.setBrk x).time = s.time := rfl
@[simp] theorem setBrk_motion (s : State) (x : BreakUnit) : (s.setBrk x).motion = s.motion := rfl
@[simp] theorem setBrk_ring (s : State) (x : BreakUnit) : (s.setBrk x).ring = s.ring := rfl
@[simp] theorem setBrk_load (s : State) (x : BreakUnit) : (s.setBrk x).load = s.load := rfl
@[simp] theorem setBrk_pwm (s : State) (x : BreakUnit) : (s.setBrk x).pwm = s.pwm := rfl
@[simp] theorem setBrk_env (s : State) (x : BreakUnit) : (s.setBrk x).env = s.env := rfl
@[simp] theorem setBrk_line (s : State) (x : BreakUnit) : (s.setBrk x).line = s.line := rfl
@[simp] theorem setBrk_arb (s : State) (x : BreakUnit) : (s.setBrk x).arb = s.arb := rfl
@[simp] theorem setBrk_log (s : State) (x : BreakUnit) : (s.setBrk x).log = s.log := rfl
@[simp] theorem setBrk_ports (s : State) (x : BreakUnit) : (s.setBrk x).ports = s.ports := rfl
@[simp] theorem setBrk_prof (s : State) (x : BreakUnit) : (s.setBrk x).prof = s.prof := rfl
@[simp] theorem setBrk_pending (s : State) (x : BreakUnit) : (s.setBrk x).pending = s.pending := rfl
@[simp] theorem setBrk_freeCount (s : State) (x : BreakUnit) : (s.setBrk x).freeCount = s.freeCount := rfl

@[simp] theorem setArb_arb (s : State) (x : Arbiter) : (s.setArb x).arb = x := rfl
@[simp] theorem setArb_time (s : State) (x : Arbiter) : (s.setArb x).time = s.time := rfl
@[simp] theorem setArb_motion (s : State) (x : Arbiter) : (s.setArb x).motion = s.motion := rfl
@[simp] theorem setArb_ring (s : State) (x : Arbiter) : (s.setArb x).ring = s.ring := rfl
@[simp] theorem setArb_load (s : State) (x : Arbiter) : (s.setArb x).load = s.load := rfl
@[simp] theorem setArb_pwm (s : State) (x : Arbiter) : (s.setArb x).pwm = s.pwm := rfl
@[simp] theorem setArb_env (s : State) (x : Arbiter) : (s.setArb x).env = s.env := rfl
@[simp] theorem setArb_line (s : State) (x : Arbiter) : (s.setArb x).line = s.line := rfl
@[simp] theorem setArb_brk (s : State) (x : Arbiter) : (s.setArb x).brk = s.brk := rfl
@[simp] theorem setArb_log (s : State) (x : Arbiter) : (s.setArb x).log = s.log := rfl
@[simp] theorem setArb_ports (s : State) (x : Arbiter) : (s.setArb x).ports = s.ports := rfl
@[simp] theorem setArb_prof (s : State) (x : Arbiter) : (s.setArb x).prof = s.prof := rfl
@[simp] theorem setArb_pending (s : State) (x : Arbiter) : (s.setArb x).pending = s.pending := rfl
@[simp] theorem setArb_freeCount (s : State) (x : Arbiter) : (s.setArb x).freeCount = s.freeCount := rfl

@[simp] theorem setLog_log (s : State) (x : TransitLog) : (s.setLog x).log = x := rfl
@[simp] theorem setLog_time (s : State) (x : TransitLog) : (s.setLog x).time = s.time := rfl
@[simp] theorem setLog_motion (s : State) (x : TransitLog) : (s.setLog x).motion = s.motion := rfl
@[simp] theorem setLog_ring (s : State) (x : TransitLog) : (s.setLog x).ring = s.ring := rfl
@[simp] theorem setLog_load (s : State) (x : TransitLog) : (s.setLog x).load = s.load := rfl
@[simp] theorem setLog_pwm (s : State) (x : TransitLog) : (s.setLog x).pwm = s.pwm := rfl
@[simp] theorem setLog_env (s : State) (x : TransitLog) : (s.setLog x).env = s.env := rfl
@[simp] theorem setLog_line (s : State) (x : TransitLog) : (s.setLog x).line = s.line := rfl
@[simp] theorem setLog_brk (s : State) (x : TransitLog) : (s.setLog x).brk = s.brk := rfl
@[simp] theorem setLog_arb (s : State) (x : TransitLog) : (s.setLog x).arb = s.arb := rfl
@[simp] theorem setLog_ports (s : State) (x : TransitLog) : (s.setLog x).ports = s.ports := rfl
@[simp] theorem setLog_prof (s : State) (x : TransitLog) : (s.setLog x).prof = s.prof := rfl
@[simp] theorem setLog_pending (s : State) (x : TransitLog) : (s.setLog x).pending = s.pending := rfl
@[simp] theorem setLog_freeCount (s : State) (x : TransitLog) : (s.setLog x).freeCount = s.freeCount := rfl

@[simp] theorem setPorts_ports (s : State) (x : PerPort PortState) : (s.setPorts x).ports = x := rfl
@[simp] theorem setPorts_time (s : State) (x : PerPort PortState) : (s.setPorts x).time = s.time := rfl
@[simp] theorem setPorts_motion (s : State) (x : PerPort PortState) : (s.setPorts x).motion = s.motion := rfl
@[simp] theorem setPorts_ring (s : State) (x : PerPort PortState) : (s.setPorts x).ring = s.ring := rfl
@[simp] theorem setPorts_load (s : State) (x : PerPort PortState) : (s.setPorts x).load = s.load := rfl
@[simp] theorem setPorts_pwm (s : State) (x : PerPort PortState) : (s.setPorts x).pwm = s.pwm := rfl
@[simp] theorem setPorts_env (s : State) (x : PerPort PortState) : (s.setPorts x).env = s.env := rfl
@[simp] theorem setPorts_line (s : State) (x : PerPort PortState) : (s.setPorts x).line = s.line := rfl
@[simp] theorem setPorts_brk (s : State) (x : PerPort PortState) : (s.setPorts x).brk = s.brk := rfl
@[simp] theorem setPorts_arb (s : State) (x : PerPort PortState) : (s.setPorts x).arb = s.arb := rfl
@[simp] theorem setPorts_log (s : State) (x : PerPort PortState) : (s.setPorts x).log = s.log := rfl
@[simp] theorem setPorts_prof (s : State) (x : PerPort PortState) : (s.setPorts x).prof = s.prof := rfl
@[simp] theorem setPorts_pending (s : State) (x : PerPort PortState) : (s.setPorts x).pending = s.pending := rfl
@[simp] theorem setPorts_freeCount (s : State) (x : PerPort PortState) : (s.setPorts x).freeCount = s.freeCount := rfl

@[simp] theorem setProf_prof (s : State) (x : ProfileUnit) : (s.setProf x).prof = x := rfl
@[simp] theorem setProf_time (s : State) (x : ProfileUnit) : (s.setProf x).time = s.time := rfl
@[simp] theorem setProf_motion (s : State) (x : ProfileUnit) : (s.setProf x).motion = s.motion := rfl
@[simp] theorem setProf_ring (s : State) (x : ProfileUnit) : (s.setProf x).ring = s.ring := rfl
@[simp] theorem setProf_load (s : State) (x : ProfileUnit) : (s.setProf x).load = s.load := rfl
@[simp] theorem setProf_pwm (s : State) (x : ProfileUnit) : (s.setProf x).pwm = s.pwm := rfl
@[simp] theorem setProf_env (s : State) (x : ProfileUnit) : (s.setProf x).env = s.env := rfl
@[simp] theorem setProf_line (s : State) (x : ProfileUnit) : (s.setProf x).line = s.line := rfl
@[simp] theorem setProf_brk (s : State) (x : ProfileUnit) : (s.setProf x).brk = s.brk := rfl
@[simp] theorem setProf_arb (s : State) (x : ProfileUnit) : (s.setProf x).arb = s.arb := rfl
@[simp] theorem setProf_log (s : State) (x : ProfileUnit) : (s.setProf x).log = s.log := rfl
@[simp] theorem setProf_ports (s : State) (x : ProfileUnit) : (s.setProf x).ports = s.ports := rfl
@[simp] theorem setProf_pending (s : State) (x : ProfileUnit) : (s.setProf x).pending = s.pending := rfl
@[simp] theorem setProf_freeCount (s : State) (x : ProfileUnit) : (s.setProf x).freeCount = s.freeCount := rfl

@[simp] theorem setPending_pending (s : State) (x : List Instr) : (s.setPending x).pending = x := rfl
@[simp] theorem setPending_time (s : State) (x : List Instr) : (s.setPending x).time = s.time := rfl
@[simp] theorem setPending_motion (s : State) (x : List Instr) : (s.setPending x).motion = s.motion := rfl
@[simp] theorem setPending_ring (s : State) (x : List Instr) : (s.setPending x).ring = s.ring := rfl
@[simp] theorem setPending_load (s : State) (x : List Instr) : (s.setPending x).load = s.load := rfl
@[simp] theorem setPending_pwm (s : State) (x : List Instr) : (s.setPending x).pwm = s.pwm := rfl
@[simp] theorem setPending_env (s : State) (x : List Instr) : (s.setPending x).env = s.env := rfl
@[simp] theorem setPending_line (s : State) (x : List Instr) : (s.setPending x).line = s.line := rfl
@[simp] theorem setPending_brk (s : State) (x : List Instr) : (s.setPending x).brk = s.brk := rfl
@[simp] theorem setPending_arb (s : State) (x : List Instr) : (s.setPending x).arb = s.arb := rfl
@[simp] theorem setPending_log (s : State) (x : List Instr) : (s.setPending x).log = s.log := rfl
@[simp] theorem setPending_ports (s : State) (x : List Instr) : (s.setPending x).ports = s.ports := rfl
@[simp] theorem setPending_prof (s : State) (x : List Instr) : (s.setPending x).prof = s.prof := rfl
@[simp] theorem setPending_freeCount (s : State) (x : List Instr) : (s.setPending x).freeCount = s.freeCount := rfl

/-! ### One port, all ports -/

@[simp] theorem modPort_time (s : State) (p : Port) (f : PortState → PortState) :
    (s.modPort p f).time = s.time := rfl
@[simp] theorem modPorts_time (s : State) (f : PortState → PortState) :
    (s.modPorts f).time = s.time := rfl
@[simp] theorem modPort_motion (s : State) (p : Port) (f : PortState → PortState) :
    (s.modPort p f).motion = s.motion := rfl
@[simp] theorem modPorts_motion (s : State) (f : PortState → PortState) :
    (s.modPorts f).motion = s.motion := rfl
@[simp] theorem modPort_ring (s : State) (p : Port) (f : PortState → PortState) :
    (s.modPort p f).ring = s.ring := rfl
@[simp] theorem modPorts_ring (s : State) (f : PortState → PortState) :
    (s.modPorts f).ring = s.ring := rfl
@[simp] theorem modPort_load (s : State) (p : Port) (f : PortState → PortState) :
    (s.modPort p f).load = s.load := rfl
@[simp] theorem modPorts_load (s : State) (f : PortState → PortState) :
    (s.modPorts f).load = s.load := rfl
@[simp] theorem modPort_pwm (s : State) (p : Port) (f : PortState → PortState) :
    (s.modPort p f).pwm = s.pwm := rfl
@[simp] theorem modPorts_pwm (s : State) (f : PortState → PortState) :
    (s.modPorts f).pwm = s.pwm := rfl
@[simp] theorem modPort_env (s : State) (p : Port) (f : PortState → PortState) :
    (s.modPort p f).env = s.env := rfl
@[simp] theorem modPorts_env (s : State) (f : PortState → PortState) :
    (s.modPorts f).env = s.env := rfl
@[simp] theorem modPort_line (s : State) (p : Port) (f : PortState → PortState) :
    (s.modPort p f).line = s.line := rfl
@[simp] theorem modPorts_line (s : State) (f : PortState → PortState) :
    (s.modPorts f).line = s.line := rfl
@[simp] theorem modPort_brk (s : State) (p : Port) (f : PortState → PortState) :
    (s.modPort p f).brk = s.brk := rfl
@[simp] theorem modPorts_brk (s : State) (f : PortState → PortState) :
    (s.modPorts f).brk = s.brk := rfl
@[simp] theorem modPort_arb (s : State) (p : Port) (f : PortState → PortState) :
    (s.modPort p f).arb = s.arb := rfl
@[simp] theorem modPorts_arb (s : State) (f : PortState → PortState) :
    (s.modPorts f).arb = s.arb := rfl
@[simp] theorem modPort_log (s : State) (p : Port) (f : PortState → PortState) :
    (s.modPort p f).log = s.log := rfl
@[simp] theorem modPorts_log (s : State) (f : PortState → PortState) :
    (s.modPorts f).log = s.log := rfl
@[simp] theorem modPort_prof (s : State) (p : Port) (f : PortState → PortState) :
    (s.modPort p f).prof = s.prof := rfl
@[simp] theorem modPorts_prof (s : State) (f : PortState → PortState) :
    (s.modPorts f).prof = s.prof := rfl
@[simp] theorem modPort_pending (s : State) (p : Port) (f : PortState → PortState) :
    (s.modPort p f).pending = s.pending := rfl
@[simp] theorem modPorts_pending (s : State) (f : PortState → PortState) :
    (s.modPorts f).pending = s.pending := rfl
@[simp] theorem modPort_freeCount (s : State) (p : Port) (f : PortState → PortState) :
    (s.modPort p f).freeCount = s.freeCount := rfl
@[simp] theorem modPorts_freeCount (s : State) (f : PortState → PortState) :
    (s.modPorts f).freeCount = s.freeCount := rfl

@[simp] theorem modPort_port_same (s : State) (p : Port) (f : PortState → PortState) :
    (s.modPort p f).port p = f (s.port p) := by simp [State.modPort, State.port]

@[simp] theorem modPort_port_other (s : State) {p q : Port} (f : PortState → PortState) (h : q ≠ p) :
    (s.modPort p f).port q = s.port q := by simp [State.modPort, State.port, h]

theorem modPort_port (s : State) (p q : Port) (f : PortState → PortState) :
    (s.modPort p f).port q = if q = p then f (s.port p) else s.port q := by
  by_cases h : q = p
  · subst h; simp
  · simp [h]

@[simp] theorem modPorts_port (s : State) (q : Port) (f : PortState → PortState) :
    (s.modPorts f).port q = f (s.port q) := by simp [State.modPorts, State.port]

@[simp] theorem setTime_port (s : State) (x) (q : Port) : (s.setTime x).port q = s.port q := rfl
@[simp] theorem setMotion_port (s : State) (x) (q : Port) : (s.setMotion x).port q = s.port q := rfl
@[simp] theorem setRing_port (s : State) (x) (q : Port) : (s.setRing x).port q = s.port q := rfl
@[simp] theorem setLoad_port (s : State) (x) (q : Port) : (s.setLoad x).port q = s.port q := rfl
@[simp] theorem setPwm_port (s : State) (x) (q : Port) : (s.setPwm x).port q = s.port q := rfl
@[simp] theorem setEnv_port (s : State) (x) (q : Port) : (s.setEnv x).port q = s.port q := rfl
@[simp] theorem setLine_port (s : State) (x) (q : Port) : (s.setLine x).port q = s.port q := rfl
@[simp] theorem setBrk_port (s : State) (x) (q : Port) : (s.setBrk x).port q = s.port q := rfl
@[simp] theorem setArb_port (s : State) (x) (q : Port) : (s.setArb x).port q = s.port q := rfl
@[simp] theorem setLog_port (s : State) (x) (q : Port) : (s.setLog x).port q = s.port q := rfl
@[simp] theorem setProf_port (s : State) (x) (q : Port) : (s.setProf x).port q = s.port q := rfl
@[simp] theorem setPending_port (s : State) (x) (q : Port) : (s.setPending x).port q = s.port q := rfl
@[simp] theorem setPorts_port (s : State) (x : PerPort PortState) (q : Port) :
    (s.setPorts x).port q = x.get q := rfl

end Sys2Proof.Machine
end

