-- ==== Sys2Proof/Laws/Notices.lean ====
section
/-! SUPPORT. What raising a notice, setting a condition and appending to the log can change, said once
per operation. -/
namespace Sys2Proof.Machine

/-! ### Frames compose -/

theorem KeepsPlant.refl (s : State) : KeepsPlant s s := by simp [KeepsPlant]

theorem KeepsPlant.trans {s t u : State} (h : KeepsPlant s t) (k : KeepsPlant t u) :
    KeepsPlant s u := by
  simp_all [KeepsPlant]

/-! ### One port -/

@[simp] theorem startPulse_link (q : PortState) : q.startPulse.link = q.link := rfl

@[simp] theorem latchNote_link (q : PortState) : q.latchNote.link = q.link := rfl

@[simp] theorem noteAfter_link (x : NoticeSet) (q : PortState) :
    (q.noteAfter x).link = q.link := by
  unfold PortState.noteAfter
  split
  · rfl
  · split <;> rfl

@[simp] theorem raise_link (k : Notice) (q : PortState) : (q.raise k).link = q.link := by
  unfold PortState.raise
  split
  · rfl
  · rw [noteAfter_link]; rfl

@[simp] theorem setCondition_link (k : Notice) (b : Bool) (q : PortState) :
    (q.setCondition k b).link = q.link := by
  unfold PortState.setCondition
  dsimp only
  split
  · split
    · rfl
    · rw [raise_link]; rfl
  · rfl

@[simp] theorem emptyPending_link (q : PortState) : q.emptyPending.link = q.link := by
  unfold PortState.emptyPending
  rw [noteAfter_link]; rfl

/-- Every field of the link part agrees when the link parts do. -/
theorem PortState.of_link {q r : PortState} (h : q.link = r.link) :
    q.rx = r.rx ∧ q.gap = r.gap ∧ q.tx = r.tx ∧ q.txTimer = r.txTimer ∧ q.waiting = r.waiting ∧
      q.live = r.live ∧ q.window = r.window ∧ q.action = r.action ∧ q.lock = r.lock ∧
      q.map = r.map ∧ q.mode = r.mode ∧ q.watermark = r.watermark := by
  simpa [PortState.link] using h

/-! ### Raising -/

@[simp] theorem raiseAt_frame (k : Notice) (p : Port) (s : State) :
    NoticesOnly s (raiseAt k p s) := by
  refine ⟨rfl, rfl, rfl, rfl, rfl, rfl, rfl, rfl, rfl, rfl, rfl, rfl, rfl, fun q => ?_⟩
  unfold raiseAt
  rw [modPort_port]
  split
  · next h => rw [raise_link, h]
  · rfl

@[simp] theorem raiseAll_frame (k : Notice) (s : State) : NoticesOnly s (raiseAll k s) := by
  refine ⟨rfl, rfl, rfl, rfl, rfl, rfl, rfl, rfl, rfl, rfl, rfl, rfl, rfl, fun q => ?_⟩
  simp [raiseAll]

@[simp] theorem raiseOthers_frame (k : Notice) (p : Port) (s : State) :
    NoticesOnly s (raiseOthers k p s) := by
  refine ⟨rfl, rfl, rfl, rfl, rfl, rfl, rfl, rfl, rfl, rfl, rfl, rfl, rfl, fun q => ?_⟩
  simp only [raiseOthers, setPorts_port, PerPort.get_of]
  split
  · rfl
  · exact raise_link _ _

@[simp] theorem setConditionAll_frame (k : Notice) (b : Bool) (s : State) :
    NoticesOnly s (setConditionAll k b s) := by
  refine ⟨rfl, rfl, rfl, rfl, rfl, rfl, rfl, rfl, rfl, rfl, rfl, rfl, rfl, fun q => ?_⟩
  simp [setConditionAll]

/-! ### The log -/

@[simp] theorem evalWatermarks_frame (s : State) : NoticesOnly s (evalWatermarks s) := by
  refine ⟨rfl, rfl, rfl, rfl, rfl, rfl, rfl, rfl, rfl, rfl, rfl, rfl, rfl, fun q => ?_⟩
  simp only [evalWatermarks, setPorts_port, PerPort.get_of, setCondition_link]
  rfl

@[simp] theorem raiseSkips_frame (s : State) : NoticesOnly s (raiseSkips s) := by
  refine ⟨rfl, rfl, rfl, rfl, rfl, rfl, rfl, rfl, rfl, rfl, rfl, rfl, rfl, fun q => ?_⟩
  simp only [raiseSkips, setPorts_port, PerPort.get_of]
  split
  · exact raise_link _ _
  · rfl

@[simp] theorem logPlace_frame (b : LogBody) (s : State) : LogOnly s (logPlace b s) := by
  simp [LogOnly, logPlace]

/-- What appending leaves in the log. -/
@[simp] theorem logPlace_log (b : LogBody) (s : State) :
    (logPlace b s).log = s.log.place { body := b, stamp := s.time.ms } := by
  simp [logPlace]

@[simp] theorem logAppend_frame (b : LogBody) (s : State) : LogOnly s (logAppend b s) := by
  unfold logAppend
  split
  · simp [LogOnly]
  · simp [LogOnly]
  · dsimp only
    split <;> simp [LogOnly]

end Sys2Proof.Machine
end

