-- ==== Sys2Proof/Laws/Levels.lean ====
section
/-! SUPPORT. The notice sets kind by kind (R176, R177): what a raise and a condition do to each kind, and
that STALL, LOAD_WARN and LOAD_TRIP are touched by their own evaluation alone. -/
namespace Sys2Proof.Machine

/-! ### Sets of kinds -/

theorem Notice.bit_inj {k j : Notice} (h : k.bit = j.bit) : k = j := by
  cases k <;> cases j <;> first | rfl | exact absurd h (by decide)

theorem Notice.bit_lt (k : Notice) : k.bit < 16 := by cases k <;> decide

theorem Notice.mask_eq (k : Notice) : k.mask = BitVec.twoPow 16 k.bit :=
  (BitVec.twoPow_eq 16 k.bit).symm

/-- A kind is in a set exactly where its bit is set. -/
theorem inSet_eq (k : Notice) (x : NoticeSet) : k.inSet x = x.getLsbD k.bit := by
  have hk := k.bit_lt
  unfold Notice.inSet
  rw [Notice.mask_eq, BitVec.and_twoPow]
  cases h : x.getLsbD k.bit
  · simp
  · simp only [if_true]
    refine bne_iff_ne.2 fun h0 => ?_
    have := congrArg (fun v => v.getLsbD k.bit) h0
    simp [hk] at this

theorem mask_getLsbD (k j : Notice) : j.mask.getLsbD k.bit = decide (k = j) := by
  have hk := k.bit_lt
  rw [Notice.mask_eq, BitVec.getLsbD_twoPow]
  by_cases h : k = j
  · subst h; simp [hk]
  · have : ¬j.bit = k.bit := fun e => h (Notice.bit_inj e).symm
    simp [h, this]

@[simp] theorem inSet_or_mask (k j : Notice) (x : NoticeSet) :
    k.inSet (x ||| j.mask) = (k.inSet x || decide (k = j)) := by
  rw [inSet_eq, inSet_eq, BitVec.getLsbD_or, mask_getLsbD]

@[simp] theorem inSet_and_not_mask (k j : Notice) (x : NoticeSet) :
    k.inSet (x &&& ~~~j.mask) = (k.inSet x && !decide (k = j)) := by
  rw [inSet_eq, inSet_eq, BitVec.getLsbD_and, BitVec.getLsbD_not, mask_getLsbD]
  simp [k.bit_lt]

/-! ### One port -/

@[simp] theorem noteAfter_pendingSet (x : NoticeSet) (q : PortState) :
    (q.noteAfter x).pendingSet = q.pendingSet := by
  unfold PortState.noteAfter
  split
  · rfl
  · split <;> rfl

@[simp] theorem noteAfter_holding (x : NoticeSet) (q : PortState) :
    (q.noteAfter x).holding = q.holding := by
  unfold PortState.noteAfter
  split
  · rfl
  · split <;> rfl

@[simp] theorem raise_holding (j : Notice) (q : PortState) : (q.raise j).holding = q.holding := by
  unfold PortState.raise
  split
  · rfl
  · rw [noteAfter_holding]

@[simp] theorem raise_inSet (k j : Notice) (q : PortState) :
    k.inSet (q.raise j).pendingSet = (k.inSet q.pendingSet || decide (k = j)) := by
  unfold PortState.raise
  split
  · next h =>
    by_cases e : k = j
    · subst e; simp [h]
    · simp [e]
  · rw [noteAfter_pendingSet, inSet_or_mask]

@[simp] theorem setCondition_holding (k j : Notice) (b : Bool) (q : PortState) :
    k.inSet (q.setCondition j b).holding = if k = j then b else k.inSet q.holding := by
  unfold PortState.setCondition
  by_cases e : k = j
  · subst e
    cases b <;> simp
    split <;> simp
  · cases b <;> simp [e]
    split <;> simp [e]

@[simp] theorem setCondition_pending (k j : Notice) (b : Bool) (q : PortState) :
    k.inSet (q.setCondition j b).pendingSet =
      (k.inSet q.pendingSet || (decide (k = j) && b && !k.inSet q.holding)) := by
  unfold PortState.setCondition
  by_cases e : k = j
  · subst e
    cases b <;> simp
    split
    · next h => simp [h]
    · next h => simp [h]
  · cases b <;> simp [e]
    split <;> simp [e]

/-! ### A level condition set (R177) -/

/-- A condition set at every port becomes what it is set to, and pending where it begins. -/
theorem setConditionAll_becomes (k : Notice) (b : Bool) (s : State) :
    LevelBecomes k b s (setConditionAll k b s) := by
  intro p
  simp [setConditionAll]

/-! ### The kinds of the plant -/

/-- STALL, LOAD_WARN and LOAD_TRIP: the level kinds of the motion unit and the load unit. -/
def Notice.ofPlant (k : Notice) : Bool := k == .stall || k == .loadWarn || k == .loadTrip

/-- The kinds of the plant hold and are pending as they were. -/
def KeepsLevels (s t : State) : Prop :=
  ∀ (k : Notice) (p : Port), k.ofPlant = true →
    k.inSet (t.port p).holding = k.inSet (s.port p).holding ∧
      k.inSet (t.port p).pendingSet = k.inSet (s.port p).pendingSet

namespace KeepsLevels

theorem refl (s : State) : KeepsLevels s s := fun _ _ _ => ⟨rfl, rfl⟩

theorem trans {s t u : State} (h : KeepsLevels s t) (k : KeepsLevels t u) : KeepsLevels s u :=
  fun n p hn => ⟨(k n p hn).1.trans (h n p hn).1, (k n p hn).2.trans (h n p hn).2⟩

/-- An operation that leaves the ports, before one that keeps their kinds. -/
theorem after_eq {s t u : State} (h : t.ports = s.ports) (k : KeepsLevels t u) :
    KeepsLevels s u := by
  intro n p hn
  have hp : t.port p = s.port p := by simp [State.port, h]
  exact ⟨hp ▸ (k n p hn).1, hp ▸ (k n p hn).2⟩

theorem of_eq {s t : State} (h : t.ports = s.ports) : KeepsLevels s t := after_eq h (refl t)

/-- What a level becomes through an operation that keeps it, before and after. -/
theorem becomes {s t u v : State} {k : Notice} {b : Bool} (hk : k.ofPlant = true)
    (h : KeepsLevels s t) (hb : LevelBecomes k b t u) (h' : KeepsLevels u v) :
    LevelBecomes k b s v := by
  intro p
  rw [(h' k p hk).1, (h' k p hk).2, (hb p).1, (hb p).2, (h k p hk).1, (h k p hk).2]
  exact ⟨rfl, rfl⟩

end KeepsLevels

theorem ne_of_ofPlant {k j : Notice} (hk : k.ofPlant = true) (hj : j.ofPlant = false) : k ≠ j := by
  rintro rfl
  exact absurd hk (by simp [hj])

theorem raiseAt_levels {j : Notice} (hj : j.ofPlant = false) (p : Port) (s : State) :
    KeepsLevels s (raiseAt j p s) := by
  intro k q hk
  unfold raiseAt
  rw [modPort_port]
  split
  · next h => subst h; simp [ne_of_ofPlant hk hj, State.port]
  · exact ⟨rfl, rfl⟩

theorem raiseAll_levels {j : Notice} (hj : j.ofPlant = false) (s : State) :
    KeepsLevels s (raiseAll j s) := by
  intro k q hk
  simp [raiseAll, ne_of_ofPlant hk hj]

theorem raiseOthers_levels {j : Notice} (hj : j.ofPlant = false) (p : Port) (s : State) :
    KeepsLevels s (raiseOthers j p s) := by
  intro k q hk
  simp only [raiseOthers, setPorts_port, PerPort.get_of]
  split
  · exact ⟨rfl, rfl⟩
  · simp [ne_of_ofPlant hk hj, State.port]

theorem setConditionAll_levels {j : Notice} (hj : j.ofPlant = false) (b : Bool) (s : State) :
    KeepsLevels s (setConditionAll j b s) := by
  intro k q hk
  simp [setConditionAll, ne_of_ofPlant hk hj]

theorem evalWatermarks_levels (s : State) : KeepsLevels s (evalWatermarks s) := by
  intro k q hk
  simp [evalWatermarks, ne_of_ofPlant hk (j := .logWatermark) rfl, State.port]

theorem raiseSkips_levels (s : State) : KeepsLevels s (raiseSkips s) := by
  intro k q hk
  simp only [raiseSkips, setPorts_port, PerPort.get_of]
  split
  · simp [ne_of_ofPlant hk (j := .logSkip) rfl, State.port]
  · exact ⟨rfl, rfl⟩

theorem logPlace_levels (b : LogBody) (s : State) : KeepsLevels s (logPlace b s) :=
  (raiseSkips_levels s).trans (.after_eq rfl (evalWatermarks_levels _))

theorem logAppend_levels (b : LogBody) (s : State) : KeepsLevels s (logAppend b s) := by
  unfold logAppend
  split
  · exact .of_eq rfl
  · exact logPlace_levels b s
  · dsimp only
    split
    · exact (logPlace_levels b s).trans (.after_eq rfl (raiseAll_levels rfl _))
    · exact (logPlace_levels b s).trans (.of_eq rfl)

theorem recompute_levels (s : State) : KeepsLevels s (recompute s) := by
  unfold recompute
  dsimp only
  refine .trans ?_ (setConditionAll_levels rfl _ _)
  split
  · exact .after_eq rfl (raiseAll_levels rfl _)
  · exact .of_eq rfl

theorem storeOutcome_levels (o : ChangeOutcome) (s : State) : KeepsLevels s (storeOutcome o s) :=
  .after_eq rfl (raiseAt_levels rfl _ _)

theorem endInFlight_levels (r : EndReason) (s : State) : KeepsLevels s (endInFlight r s) := by
  unfold endInFlight
  split
  · exact .refl s
  · exact .after_eq rfl (storeOutcome_levels _ _)

theorem storeEnds_levels (r : EndReason) (l : List PendingEntry) (s : State) :
    KeepsLevels s (storeEnds r l s) := by
  induction l generalizing s with
  | nil => exact .refl s
  | cons e l ih => exact (storeOutcome_levels _ _).trans (ih _)

theorem abortChanges_levels (s : State) : KeepsLevels s (abortChanges s) :=
  (endInFlight_levels _ _).trans (.after_eq rfl (storeEnds_levels _ _ _))

theorem arbiterPhaseChange_levels (a b : Phase) (s : State) :
    KeepsLevels s (arbiterPhaseChange a b s) := by
  unfold arbiterPhaseChange
  split
  · exact abortChanges_levels s
  · split
    · exact .of_eq rfl
    · split <;> exact .of_eq rfl

theorem phaseWrite_levels (p : Phase) (c : Cause) (s : State) :
    KeepsLevels s (phaseWrite p c s) := by
  unfold phaseWrite
  split
  · exact .refl s
  · dsimp only
    refine .trans ?_ (arbiterPhaseChange_levels _ _ _)
    refine .trans ?_ (recompute_levels _)
    refine .trans (logAppend_levels (.phase s.line.phase p c s.motion.vMeas) s) ?_
    exact .trans (raiseAll_levels (j := .phase) rfl _) (.of_eq rfl)

end Sys2Proof.Machine
end

