-- ==== Sys2Proof/Laws/Phase.lean ====
section
/-! SUPPORT. What a recomputation, a floor duty, the ends of changes and a phase change can change, said
once per operation. -/
namespace Sys2Proof.Machine

/-! ### Envelope and floor duty -/

@[simp] theorem setIdle_frame (b : Bool) (s : State) : EnvelopeOnly s (setIdle b s) := by
  refine ⟨rfl, rfl, rfl, rfl, rfl, rfl, rfl, rfl, rfl, rfl, rfl, rfl, fun _ => rfl⟩

@[simp] theorem setIdle_env (b : Bool) (s : State) :
    (setIdle b s).env = { s.env with idle := b } := rfl

@[simp] theorem recompute_frame (s : State) : EnvelopeOnly s (recompute s) := by
  unfold recompute
  dsimp only
  split <;> simp [EnvelopeOnly]

@[simp] theorem recompute_env (s : State) : (recompute s).env = envelopeOf s := by
  unfold recompute
  dsimp only
  split <;> simp

/-- The idle flag survives a recomputation. -/
@[simp] theorem envelopeOf_idle (s : State) : (envelopeOf s).idle = s.env.idle := by
  unfold envelopeOf
  split <;> rfl

@[simp] theorem setFloorDuty_fields (s : State) :
    (setFloorDuty s).time = s.time ∧ (setFloorDuty s).motion = s.motion ∧
      (setFloorDuty s).ring = s.ring ∧ (setFloorDuty s).pwm = s.pwm ∧
      (setFloorDuty s).env = s.env ∧ (setFloorDuty s).line = s.line ∧
      (setFloorDuty s).brk = s.brk ∧ (setFloorDuty s).arb = s.arb ∧
      (setFloorDuty s).log = s.log ∧ (setFloorDuty s).ports = s.ports ∧
      (setFloorDuty s).prof = s.prof ∧ (setFloorDuty s).pending = s.pending ∧
      (setFloorDuty s).freeCount = s.freeCount := by
  refine ⟨rfl, rfl, rfl, rfl, rfl, rfl, rfl, rfl, rfl, rfl, rfl, rfl, rfl⟩

@[simp] theorem setFloorDuty_load (s : State) :
    (setFloorDuty s).load = { s.load with floorDuty := floorDuty s } := rfl

@[simp] theorem setFloorDuty_port (s : State) (q : Port) : (setFloorDuty s).port q = s.port q := rfl

/-- The floor duty depends on the profile, the phase, flow, peak load and base duty, the release sums
and the DRYER port's liveness and action alone. -/
theorem floorDuty_congr {s t : State} (hp : t.prof = s.prof) (hl : t.line.phase = s.line.phase)
    (hf : t.load.flow = s.load.flow) (hk : t.load.peak = s.load.peak)
    (hb : t.load.baseDuty = s.load.baseDuty) (hr : t.ring.release = s.ring.release)
    (hd : (t.port .dryer).link = (s.port .dryer).link) : floorDuty t = floorDuty s := by
  have h := PortState.of_link hd
  simp [floorDuty, State.lostUnderLimit, hp, hl, hf, hk, hb, hr, h]

/-- In UNCONFIGURED, BREAK and SAFE the floor duty is 256 (R54). -/
theorem floorDuty_forced {s : State}
    (h : s.line.phase = .unconfigured ∨ s.line.phase = .webBreak ∨ s.line.phase = .safe) :
    floorDuty s = 256 := by
  unfold floorDuty
  split
  · rfl
  · rcases h with h | h | h <;> simp [h]

/-! ### Ends of changes -/

@[simp] theorem storeOutcome_frame (o : ChangeOutcome) (s : State) :
    ArbiterOnly s (storeOutcome o s) := by
  simp [ArbiterOnly, storeOutcome]

@[simp] theorem storeOutcome_arb (o : ChangeOutcome) (s : State) :
    (storeOutcome o s).arb =
      { s.arb with outcomes := s.arb.outcomes.set (keyOwner o.key) (some o) } := by
  simp [storeOutcome]

@[simp] theorem endInFlight_frame (r : EndReason) (s : State) :
    ArbiterOnly s (endInFlight r s) := by
  unfold endInFlight
  split <;> simp [ArbiterOnly]

/-- A change in flight that ends leaves nothing in flight and the list as it was. -/
@[simp] theorem endInFlight_arb (r : EndReason) (s : State) :
    (endInFlight r s).arb.inFlight = none ∧ (endInFlight r s).arb.list = s.arb.list ∧
      (endInFlight r s).arb.arrival = s.arb.arrival := by
  unfold endInFlight
  split <;> simp_all

@[simp] theorem storeEnds_frame (r : EndReason) (l : List PendingEntry) (s : State) :
    ArbiterOnly s (storeEnds r l s) := by
  induction l generalizing s with
  | nil => simp [ArbiterOnly, storeEnds]
  | cons e l ih =>
    have h := ih (storeOutcome (e.outcome r) s)
    simpa [ArbiterOnly, storeEnds] using h

@[simp] theorem storeEnds_arb (r : EndReason) (l : List PendingEntry) (s : State) :
    (storeEnds r l s).arb.list = s.arb.list ∧ (storeEnds r l s).arb.inFlight = s.arb.inFlight ∧
      (storeEnds r l s).arb.arrival = s.arb.arrival ∧
      (storeEnds r l s).arb.settleCount = s.arb.settleCount ∧
      (storeEnds r l s).arb.settleTimer = s.arb.settleTimer := by
  induction l generalizing s with
  | nil => simp [storeEnds]
  | cons e l ih => simp [storeEnds, ih]

@[simp] theorem endPending_frame (f : PendingEntry → Bool) (r : EndReason) (s : State) :
    ArbiterOnly s (endPending f r s) := by
  simp [ArbiterOnly, endPending]

/-- The entries that end leave the list; the change in flight stays. -/
@[simp] theorem endPending_arb (f : PendingEntry → Bool) (r : EndReason) (s : State) :
    (endPending f r s).arb.list = s.arb.list.filter (fun e => !f e) ∧
      (endPending f r s).arb.inFlight = s.arb.inFlight ∧
      (endPending f r s).arb.arrival = s.arb.arrival ∧
      (endPending f r s).arb.settleCount = s.arb.settleCount ∧
      (endPending f r s).arb.settleTimer = s.arb.settleTimer := by
  simp [endPending]

@[simp] theorem abortChanges_frame (s : State) : ArbiterOnly s (abortChanges s) := by
  simp [ArbiterOnly, abortChanges]

/-- After the abort nothing is pending and nothing is in flight (R146). -/
@[simp] theorem abortChanges_arb (s : State) :
    (abortChanges s).arb.list = [] ∧ (abortChanges s).arb.inFlight = none := by
  simp [abortChanges]

@[simp] theorem arbiterPhaseChange_frame (a b : Phase) (s : State) :
    ArbiterOnly s (arbiterPhaseChange a b s) := by
  unfold arbiterPhaseChange
  split
  · exact abortChanges_frame s
  · split
    · simp [ArbiterOnly]
    · split <;> simp [ArbiterOnly]

/-- A phase change lengthens no pending list. -/
theorem arbiterPhaseChange_list (a b : Phase) (s : State) :
    (arbiterPhaseChange a b s).arb.list.length ≤ s.arb.list.length := by
  unfold arbiterPhaseChange
  split
  · simp
  · split
    · simp
    · split <;> simp

/-! ### The phase change -/

/-- A change to the phase already held is none (R81). -/
theorem phaseWrite_same {p : Phase} {c : Cause} {s : State} (h : s.line.phase = p) :
    phaseWrite p c s = s := by
  simp [phaseWrite, h]

/-- The phase unit after a phase change (R81). -/
theorem phaseWrite_line {p : Phase} {c : Cause} {s : State} (h : s.line.phase ≠ p) :
    (phaseWrite p c s).line = lineOnChange s p c := by
  simp [phaseWrite, h]

/-- p_b after a phase change (R116). -/
theorem phaseWrite_brk {p : Phase} {c : Cause} {s : State} (h : s.line.phase ≠ p) :
    (phaseWrite p c s).brk = breakOnChange s.line.phase s.brk := by
  simp [phaseWrite, h]

/-- After a change to another phase that phase is held. -/
@[simp] theorem phaseWrite_phase (p : Phase) (c : Cause) (s : State) :
    (phaseWrite p c s).line.phase = p := by
  by_cases h : s.line.phase = p
  · rw [phaseWrite_same h, h]
  · rw [phaseWrite_line h]; rfl

/-- A phase change leaves the plant's side alone. -/
@[simp] theorem phaseWrite_frame (p : Phase) (c : Cause) (s : State) :
    KeepsPlant s (phaseWrite p c s) := by
  by_cases h : s.line.phase = p
  · rw [phaseWrite_same h]; exact KeepsPlant.refl s
  · simp only [KeepsPlant, phaseWrite, if_neg h]
    simp [breakOnChange]
    split <;> rfl

/-- The floor duty after a change to another phase is the one of the state it leads to (R55). -/
theorem phaseWrite_duty {p : Phase} {c : Cause} {s : State} (h : s.line.phase ≠ p) :
    (phaseWrite p c s).load.floorDuty = floorDuty (phaseWrite p c s) := by
  have hd : (phaseWrite p c s).load.floorDuty =
      floorDuty (((raiseAll .phase (logAppend (.phase s.line.phase p c s.motion.vMeas) s)).setLine
        (lineOnChange s p c)).setBrk (breakOnChange s.line.phase s.brk)) := by
    simp [phaseWrite, h]
  rw [hd]
  apply floorDuty_congr <;> simp [phaseWrite, h]

end Sys2Proof.Machine
end

