-- ==== Sys2Proof/Laws/Evolves.lean ====
section
/-! SUPPORT. Everything the operations between a command and its arbitration pass can do, said once: each
of them is a sequence of the changes `Evolves` lists, so a fact that those keep is kept by all. -/
namespace Sys2Proof.Machine

/-- `m` holds the phase and the lines of `l`; its counts have not risen but where the phase lets them
(a drain in DRAINING, the purge in PURGE). -/
def SameControl (l m : PhaseUnit) : Prop :=
  m.phase = l.phase ∧ m.heatInhibit = l.heatInhibit ∧ m.permit = l.permit ∧ m.fill ≤ l.fill ∧
    (l.run = none → m.run = none) ∧ (m.drain = l.drain ∨ m.drain = 0 ∨ l.phase = .draining) ∧
    ((m.purgeTimer = l.purgeTimer ∨ m.purgeTimer = none) ∧
      (m.purgeVolume = l.purgeVolume ∨ m.purgeVolume = 0) ∨ l.phase = .purge)

theorem SameControl.of_eq {l m : PhaseUnit} (h1 : m.phase = l.phase)
    (h2 : m.heatInhibit = l.heatInhibit) (h3 : m.permit = l.permit) (h4 : m.fill = l.fill)
    (h5 : m.run = l.run) (h6 : m.drain = l.drain) (h7 : m.purgeTimer = l.purgeTimer)
    (h8 : m.purgeVolume = l.purgeVolume) : SameControl l m :=
  ⟨h1, h2, h3, h4.le, fun h => h5.trans h, .inl h6, .inl ⟨.inl h7, .inl h8⟩⟩

/-- `t` is reached from `s` by raising notices other than the plant's level kinds, appending to the log,
recomputing, moving the arbiter, writing records and timers of the phase unit, and changing the phase to
one that is not BREAK. -/
inductive Evolves : State → State → Prop where
  | refl (s : State) : Evolves s s
  | trans {s t u : State} : Evolves s t → Evolves t u → Evolves s u
  | raiseAt (k : Notice) (p : Port) (s : State) (h : k.ofPlant = false) : Evolves s (raiseAt k p s)
  | raiseAll (k : Notice) (s : State) (h : k.ofPlant = false) : Evolves s (raiseAll k s)
  | raiseOthers (k : Notice) (p : Port) (s : State) (h : k.ofPlant = false) :
      Evolves s (raiseOthers k p s)
  | watermarks (s : State) : Evolves s (evalWatermarks s)
  | append (b : LogBody) (s : State) : Evolves s (logAppend b s)
  | recompute (s : State) : Evolves s (recompute s)
  | idle (b : Bool) (s : State) : Evolves s (setIdle b s)
  | duty (s : State) : Evolves s (setFloorDuty s)
  | arbiter (s : State) (a : Arbiter)
      (h : a.list.length ≤ s.arb.list.length ∨ a.list.length ≤ Config.pendingCapacity) :
      Evolves s (s.setArb a)
  | records (s : State) (l : PhaseUnit) (h : SameControl s.line l) : Evolves s (s.setLine l)
  | phase (p : Phase) (c : Cause) (s : State) (h : p ≠ .webBreak) : Evolves s (phaseWrite p c s)

namespace Evolves

/-- None of it touches the plant's side. -/
theorem keeps {s t : State} (h : Evolves s t) : KeepsPlant s t := by
  induction h with
  | refl s => exact KeepsPlant.refl s
  | trans _ _ h k => exact h.trans k
  | raiseAt => simp [KeepsPlant]
  | raiseAll => simp [KeepsPlant]
  | raiseOthers => simp [KeepsPlant]
  | watermarks => simp [KeepsPlant]
  | append => simp [KeepsPlant]
  | recompute => simp [KeepsPlant]
  | idle => simp [KeepsPlant]
  | duty => simp [KeepsPlant]
  | arbiter => simp [KeepsPlant]
  | records => simp [KeepsPlant]
  | phase => exact phaseWrite_frame _ _ _

/-- A property of states that each change keeps is kept by all of it. -/
theorem keepsProp {P : State → Prop}
    (hat : ∀ k p s, P s → P (Machine.raiseAt k p s))
    (hall : ∀ k s, P s → P (Machine.raiseAll k s))
    (hoth : ∀ k p s, P s → P (Machine.raiseOthers k p s))
    (hmark : ∀ s, P s → P (evalWatermarks s))
    (happ : ∀ b s, P s → P (logAppend b s))
    (hrec : ∀ s, P s → P (Machine.recompute s))
    (hidle : ∀ b s, P s → P (setIdle b s))
    (hduty : ∀ s, P s → P (setFloorDuty s))
    (harb : ∀ s a, (a.list.length ≤ s.arb.list.length ∨
      a.list.length ≤ Config.pendingCapacity) → P s → P (s.setArb a))
    (hline : ∀ s l, SameControl s.line l → P s → P (s.setLine l))
    (hphase : ∀ p c s, p ≠ .webBreak → P s → P (phaseWrite p c s))
    {s t : State} (h : Evolves s t) : P s → P t := by
  induction h with
  | refl s => exact id
  | trans _ _ h k => exact k ∘ h
  | raiseAt => exact hat _ _ _
  | raiseAll => exact hall _ _
  | raiseOthers => exact hoth _ _ _
  | watermarks => exact hmark _
  | append => exact happ _ _
  | recompute => exact hrec _
  | idle => exact hidle _ _
  | duty => exact hduty _
  | arbiter _ _ h => exact harb _ _ h
  | records _ _ h => exact hline _ _ h
  | phase _ _ _ h => exact hphase _ _ _ h

/-- STALL, LOAD_WARN and LOAD_TRIP hold and are pending as before. -/
theorem levels {s t : State} (h : Evolves s t) : KeepsLevels s t := by
  induction h with
  | refl s => exact .refl s
  | trans _ _ h k => exact h.trans k
  | raiseAt _ _ _ h => exact raiseAt_levels h _ _
  | raiseAll _ _ h => exact raiseAll_levels h _
  | raiseOthers _ _ _ h => exact raiseOthers_levels h _ _
  | watermarks => exact evalWatermarks_levels _
  | append => exact logAppend_levels _ _
  | recompute => exact recompute_levels _
  | idle => exact .of_eq rfl
  | duty => exact .of_eq rfl
  | arbiter => exact .of_eq rfl
  | records => exact .of_eq rfl
  | phase => exact phaseWrite_levels _ _ _

end Evolves

/-! ### Phase operations -/

theorem storeOutcome_evolves (o : ChangeOutcome) (s : State) : Evolves s (storeOutcome o s) :=
  .trans
    (.arbiter s { s.arb with outcomes := s.arb.outcomes.set (keyOwner o.key) (some o) }
      (.inl (Nat.le_refl _)))
    (.raiseAt _ _ _ rfl)

theorem endInFlight_evolves (r : EndReason) (s : State) : Evolves s (endInFlight r s) := by
  unfold endInFlight
  split
  · exact .refl s
  · refine .trans (.arbiter s _ ?_) (storeOutcome_evolves _ _)
    exact .inl (Nat.le_refl _)

theorem storeEnds_evolves (r : EndReason) (l : List PendingEntry) (s : State) :
    Evolves s (storeEnds r l s) := by
  induction l generalizing s with
  | nil => exact .refl s
  | cons e l ih => exact .trans (storeOutcome_evolves _ _) (ih _)

theorem endPending_evolves (f : PendingEntry → Bool) (r : EndReason) (s : State) :
    Evolves s (endPending f r s) :=
  .trans (.arbiter s _ (.inl (List.length_filter_le _ _))) (storeEnds_evolves _ _ _)

theorem abortChanges_evolves (s : State) : Evolves s (abortChanges s) :=
  .trans (endInFlight_evolves _ _) (endPending_evolves _ _ _)

theorem writeReady_evolves (b : Bool) (s : State) : Evolves s (writeReady b s) :=
  .records s _ (.of_eq rfl rfl rfl rfl rfl rfl rfl rfl)

theorem enterHeating_evolves (c : Cause) (s : State) : Evolves s (enterHeating c s) := by
  have h : Evolves s (writeReady (phaseWrite .heating c s).isReady (phaseWrite .heating c s)) :=
    .trans (.phase _ _ _ (by decide)) (writeReady_evolves _ _)
  unfold enterHeating
  dsimp only
  split
  · exact .trans h (.phase _ _ _ (by decide))
  · exact h

theorem evaluateReady_evolves (s : State) : Evolves s (evaluateReady s) := by
  have h := writeReady_evolves s.isReady s
  unfold evaluateReady
  dsimp only
  split
  · split
    · exact .trans h (.phase _ _ _ (by decide))
    · exact h
  · split
    · exact h
    · exact .trans h (enterHeating_evolves _ _)
  · exact h
  all_goals exact .refl s

theorem endDrain_evolves (s : State) : Evolves s (endDrain s) := by
  have h := writeReady_evolves s.isReady s
  unfold endDrain
  dsimp only
  split
  · exact .trans h (.phase _ _ _ (by decide))
  · exact .trans h (enterHeating_evolves _ _)

theorem enterDraining_evolves (c : Cause) (s : State) : Evolves s (enterDraining c s) := by
  have h : Evolves s ((phaseWrite .draining c s).setLine
      { (phaseWrite .draining c s).line with drain := (phaseWrite .draining c s).drainNow }) :=
    .trans (.phase _ _ _ (by decide))
      (.records _ _ ⟨rfl, rfl, rfl, Nat.le_refl _, id, .inr (.inr (phaseWrite_phase _ _ _)),
        .inl ⟨.inl rfl, .inl rfl⟩⟩)
  unfold enterDraining
  dsimp only
  split
  · exact .trans h (endDrain_evolves _)
  · exact h

theorem enterSafe_evolves (c : Cause) (s : State) : Evolves s (enterSafe c s) := by
  unfold enterSafe
  split
  · exact .refl s
  · exact .phase _ _ _ (by decide)

/-! ### The arbiter -/

theorem writeRecord_evolves (key : ChangeKey) (v : Int) (s : State) :
    Evolves s (writeRecord key v s) := by
  have h : Evolves s (recompute (s.setLine (s.line.putRecord key v))) :=
    .trans (.records s _ (by cases key <;> exact .of_eq rfl rfl rfl rfl rfl rfl rfl rfl))
      (.recompute _)
  unfold writeRecord
  dsimp only
  split
  · exact h
  · exact h
  · exact .trans h (evaluateReady_evolves _)
  · exact .trans h (evaluateReady_evolves _)

theorem removeGranted_length (key : ChangeKey) (i : Nat) (l : List PendingEntry) :
    (removeGranted key i l).length ≤ l.length := by
  unfold removeGranted
  split
  · simp only [List.length_append, List.length_map, List.length_take, List.length_drop]
    omega
  · exact List.length_eraseIdx_le l i

theorem grantChange_evolves (pr : Profile) (c : Candidate) (s : State) :
    Evolves s (grantChange pr c s) :=
  .trans (.arbiter s _ (.inl (removeGranted_length _ _ _))) (writeRecord_evolves _ _ _)

theorem arbiterPass_evolves (s : State) : Evolves s (arbiterPass s) := by
  unfold arbiterPass
  split
  · split
    · exact grantChange_evolves _ _ _
    · exact .refl s
  all_goals exact .refl s

theorem insertRemainder_length (r : PendingEntry) (l : List PendingEntry) :
    (insertRemainder r l).length = l.length + 1 := by
  induction l with
  | nil => rfl
  | cons e l ih =>
    unfold insertRemainder
    split
    · simp [ih]
    · simp

theorem settleSpeed_evolves (pr : Profile) (c : InFlight) (s : State) :
    Evolves s (settleSpeed pr c s) := by
  have hend : Evolves s (arbiterPass (endInFlight .settled s)) :=
    .trans (endInFlight_evolves _ _) (arbiterPass_evolves _)
  unfold settleSpeed
  dsimp only
  split
  · exact hend
  · split
    · refine .trans (.arbiter s _ ?_) (writeRecord_evolves _ _ _)
      exact .inl (Nat.le_refl _)
    · split
      · exact hend
      · next h =>
        refine .trans (.arbiter s _ (.inr ?_)) (arbiterPass_evolves _)
        simp only [insertRemainder_length]
        omega

theorem settleObserve_evolves (o : Observation) (s : State) : Evolves s (settleObserve o s) := by
  unfold settleObserve
  split
  · split
    · dsimp only
      have h : Evolves s (s.setArb { s.arb with settleCount := min 255 (s.arb.settleCount + 1) }) :=
        .arbiter s _ (.inl (Nat.le_refl _))
      split
      · refine .trans h ?_
        unfold settleChange
        split
        · exact settleSpeed_evolves _ _ _
        · exact .trans (endInFlight_evolves _ _) (arbiterPass_evolves _)
      · exact h
    · exact .arbiter s _ (.inl (Nat.le_refl _))
    · exact .refl s
  all_goals exact .refl s

theorem endInFlightOf_evolves (key : ChangeKey) (r : EndReason) (s : State) :
    Evolves s (endInFlightOf key r s) := by
  unfold endInFlightOf
  split
  · exact endInFlight_evolves _ _
  · exact .refl s

theorem takeAtOnce_evolves (key : ChangeKey) (v : Int) (s : State) :
    Evolves s (takeAtOnce key v s) :=
  .trans (endInFlightOf_evolves _ _ _)
    (.trans (endPending_evolves _ _ _)
      (.trans (writeRecord_evolves _ _ _) (arbiterPass_evolves _)))

theorem placeInList_evolves {pr : Profile} {key : ChangeKey} {v : Int} {s : State} {a : Admission}
    (h : placeChange.placeInList pr key v s = some a) : Evolves s a.state := by
  unfold placeChange.placeInList at h
  dsimp only at h
  split at h
  · obtain rfl := Option.some.inj h
    exact .trans (.arbiter s _ (.inl (by simp))) (arbiterPass_evolves _)
  · split at h
    · exact absurd h (by simp)
    · next hc =>
      obtain rfl := Option.some.inj h
      refine .trans (.arbiter s _ (.inr ?_)) (arbiterPass_evolves _)
      simp only [List.length_append, List.length_cons, List.length_nil]
      omega

theorem placeChange_evolves {pr : Profile} {key : ChangeKey} {v : Int} {s : State} {a : Admission}
    (h : placeChange pr key v s = some a) : Evolves s a.state := by
  unfold placeChange at h
  split at h
  · split at h
    · obtain rfl := Option.some.inj h
      exact .arbiter s _ (.inl (Nat.le_refl _))
    · exact placeInList_evolves h
  · exact placeInList_evolves h

theorem settleTimeout_evolves (s : State) : Evolves s (settleTimeout s) :=
  .trans (endInFlight_evolves _ _) (arbiterPass_evolves _)

theorem waitingTimeout_evolves (key : ChangeKey) (s : State) : Evolves s (waitingTimeout key s) :=
  endPending_evolves _ _ _

theorem cancelChange_evolves (key : ChangeKey) (s : State) : Evolves s (cancelChange key s) := by
  have h : Evolves s (endPendingOf key .cancelled s) := endPending_evolves _ _ _
  unfold cancelChange
  dsimp only
  split
  · exact .trans h (.trans (endInFlight_evolves _ _) (arbiterPass_evolves _))
  · exact h

theorem ownerLoss_evolves (p : Port) (s : State) : Evolves s (ownerLoss p s) := by
  have h : Evolves s (endPending (fun e => keyOwner e.key == p) .portLost s) :=
    endPending_evolves _ _ _
  unfold ownerLoss
  dsimp only
  split
  · split
    · exact .trans h (endInFlight_evolves _ _)
    · exact h
  · exact h

/-! ### Frames of the composite operations -/

@[simp] theorem arbiterPass_frame (s : State) : KeepsPlant s (arbiterPass s) :=
  (arbiterPass_evolves s).keeps

@[simp] theorem writeRecord_frame (key : ChangeKey) (v : Int) (s : State) :
    KeepsPlant s (writeRecord key v s) := (writeRecord_evolves key v s).keeps

@[simp] theorem enterSafe_frame (c : Cause) (s : State) : KeepsPlant s (enterSafe c s) :=
  (enterSafe_evolves c s).keeps

@[simp] theorem enterHeating_frame (c : Cause) (s : State) : KeepsPlant s (enterHeating c s) :=
  (enterHeating_evolves c s).keeps

@[simp] theorem evaluateReady_frame (s : State) : KeepsPlant s (evaluateReady s) :=
  (evaluateReady_evolves s).keeps

@[simp] theorem endDrain_frame (s : State) : KeepsPlant s (endDrain s) :=
  (endDrain_evolves s).keeps

@[simp] theorem enterDraining_frame (c : Cause) (s : State) : KeepsPlant s (enterDraining c s) :=
  (enterDraining_evolves c s).keeps

@[simp] theorem settleObserve_frame (o : Observation) (s : State) :
    KeepsPlant s (settleObserve o s) := (settleObserve_evolves o s).keeps

@[simp] theorem takeAtOnce_frame (key : ChangeKey) (v : Int) (s : State) :
    KeepsPlant s (takeAtOnce key v s) := (takeAtOnce_evolves key v s).keeps

@[simp] theorem cancelChange_frame (key : ChangeKey) (s : State) :
    KeepsPlant s (cancelChange key s) := (cancelChange_evolves key s).keeps

end Sys2Proof.Machine
end

