-- ==== Sys2Proof/Laws/Commands.lean ====
section
/-! SUPPORT. Everything a command can do to the state, said once: each command but RESET is a sequence of
the changes `Works` lists. -/
namespace Sys2Proof.Machine

/-- In LATCHED mode the port's NOTE line is asserted exactly while a kind of its map is pending. -/
def NoteOk (q : PortState) : Prop :=
  q.mode = .latched → q.note = (q.pendingSet &&& q.map != 0)

/-- The log holds at most 240 records, no port more unread than are held. -/
def LogOk (l : TransitLog) : Prop :=
  l.records.length ≤ Config.logCapacity ∧ ∀ p, l.unread.get p ≤ l.records.length

/-- `t` is reached from `s` by what a command other than RESET does. -/
inductive Works : State → State → Prop where
  | refl (s : State) : Works s s
  | trans {s t u : State} : Works s t → Works t u → Works s u
  | evolves {s t : State} (h : Evolves s t) : Works s t
  | motion (s : State) (m : Motion) : Works s (s.setMotion m)
  | ring (s : State) (r : Ring) : Works s (s.setRing r)
  | load (s : State) (l : Load) (h : l.floorDuty = s.load.floorDuty) : Works s (s.setLoad l)
  | pwm (s : State) (x : Pwm) : Works s (s.setPwm x)
  | prof (s : State) (x : ProfileUnit) : Works s (s.setProf x)
  | detectors (s : State) (b : BreakUnit)
      (h : b.pb = s.brk.pb ∨ b.pb = none ∧ s.line.phase ≠ .webBreak) : Works s (s.setBrk b)
  | estop (s : State) (b : Bool) : Works s (s.setLine { s.line with estopActive := b })
  | port (s : State) (p : Port) (f : PortState → PortState) (h : ∀ q, NoteOk q → NoteOk (f q)) :
      Works s (s.modPort p f)
  | ports (s : State) (f : PortState → PortState) (h : ∀ q, NoteOk q → NoteOk (f q)) :
      Works s (s.modPorts f)
  | log (s : State) (l : TransitLog) (h : LogOk s.log → LogOk l) : Works s (s.setLog l)
  | print (s : State) (l : PhaseUnit) (h : s.line.phase = .ready) (hl : l.phase = s.line.phase)
      (hd : l.drain = s.line.drain) :
      Works s (phaseWrite .printing .impressionOn (s.setLine l))
  | breakIn (s : State) (n : Nat) (h : s.line.phase.heated = true) :
      Works s (phaseWrite .webBreak .webBreak (s.setBrk { s.brk with pb := some n }))
  | breakMove (s : State) (n : Nat) (h : s.line.phase = .webBreak) :
      Works s (s.setBrk { s.brk with pb := some n })
  | breakOut {s t : State} (h : s.line.phase = .webBreak) (hl : t.line = s.line)
      (hd : t.load = s.load) (ha : t.arb = s.arb) (hg : t.log = s.log)
      (hp : (∀ q, NoteOk (s.port q)) → ∀ q, NoteOk (t.port q)) :
      Works s (phaseWrite .purge .breakClear t)

namespace Works

theorem after {s t u : State} (h : Works s t) (k : Evolves t u) : Works s u :=
  .trans h (.evolves k)

theorem pass {s t : State} (h : Works s t) : Works s (arbiterPass t) :=
  .trans h (.evolves (arbiterPass_evolves t))

theorem recompute {s t : State} (h : Works s t) : Works s (Machine.recompute t) :=
  .trans h (.evolves (.recompute t))

theorem duty {s t : State} (h : Works s t) : Works s (setFloorDuty t) :=
  .trans h (.evolves (.duty t))

theorem phase {s t : State} (p : Phase) (c : Cause) (hp : p ≠ .webBreak) (h : Works s t) :
    Works s (phaseWrite p c t) :=
  .trans h (.evolves (.phase p c t hp))

theorem append {s t : State} (b : LogBody) (h : Works s t) : Works s (logAppend b t) :=
  .trans h (.evolves (.append b t))

theorem idle {s t : State} (b : Bool) (h : Works s t) : Works s (setIdle b t) :=
  .trans h (.evolves (.idle b t))

/-- Timers and records of the phase unit. -/
theorem line {s t : State} (l : PhaseUnit) (hl : SameControl t.line l) (h : Works s t) :
    Works s (t.setLine l) :=
  .trans h (.evolves (.records t l hl))

end Works

/-! ### Ports -/

theorem noteOk_congr {q r : PortState} (h1 : r.mode = q.mode) (h2 : r.note = q.note)
    (h3 : r.pendingSet = q.pendingSet) (h4 : r.map = q.map) (h : NoteOk q) : NoteOk r := by
  unfold NoteOk at *
  rw [h1, h2, h3, h4]
  exact h

theorem noteAfter_noteOk (x : NoticeSet) (q : PortState) : NoteOk (q.noteAfter x) := by
  unfold PortState.noteAfter
  split
  · intro _; rfl
  · next hm =>
    intro hl
    exfalso
    split at hl <;> simp_all [PortState.startPulse]

theorem raise_noteOk (k : Notice) {q : PortState} (h : NoteOk q) : NoteOk (q.raise k) := by
  unfold PortState.raise
  split
  · exact h
  · exact noteAfter_noteOk _ _

theorem setCondition_noteOk (k : Notice) (b : Bool) {q : PortState} (h : NoteOk q) :
    NoteOk (q.setCondition k b) := by
  unfold PortState.setCondition
  dsimp only
  split
  · split
    · exact noteOk_congr rfl rfl rfl rfl h
    · exact raise_noteOk k (noteOk_congr rfl rfl rfl rfl h)
  · exact noteOk_congr rfl rfl rfl rfl h

theorem Works.raise {s t : State} (k : Notice) (h : Works s t) : Works s (raiseAll k t) :=
  .trans h (.ports t _ fun _ hq => raise_noteOk k hq)

theorem Works.condition {s t : State} (k : Notice) (b : Bool) (h : Works s t) :
    Works s (setConditionAll k b t) :=
  .trans h (.ports t _ fun _ hq => setCondition_noteOk k b hq)

theorem recompute_noteOk {s : State} (h : ∀ q, NoteOk (s.port q)) (q : Port) :
    NoteOk ((recompute s).port q) := by
  unfold recompute
  dsimp only
  split
  · simp only [setConditionAll, raiseAll, modPorts_port, setEnv_port]
    exact setCondition_noteOk _ _ (raise_noteOk _ (h q))
  · simp only [setConditionAll, modPorts_port, setEnv_port]
    exact setCondition_noteOk _ _ (h q)

theorem sendReply_works (p : Port) (r : Reply) (s : State) :
    Works s (s.modPort p (PortState.sendReply r)) := by
  refine .port s p _ fun q h => ?_
  unfold PortState.sendReply PortState.transmit
  split <;> exact noteOk_congr rfl rfl rfl rfl h

theorem answer_works {s t : State} (p : Port) (k : Byte) (pl : List Byte) (h : Works s t) :
    Works s (answer p k pl t) :=
  .trans h (sendReply_works p (replyTo k pl) t)

theorem receiverIdle_works (p : Port) (s : State) : Works s (receiverIdle p s) :=
  .port s p _ fun _ h => noteOk_congr rfl rfl rfl rfl h

theorem receiverTo_works (rx : Receiver) (p : Port) (s : State) : Works s (receiverTo rx p s) :=
  .port s p _ fun _ h => noteOk_congr rfl rfl rfl rfl h

theorem frameLiveness_works (p : Port) (s : State) : Works s (frameLiveness p s) := by
  have h : Works s (s.modPort p
      (fun q => { q with live := .active, window := startMs (s.windowMs p) })) :=
    .port s p _ fun _ h => noteOk_congr rfl rfl rfl rfl h
  unfold frameLiveness
  dsimp only
  split
  · exact h
  · exact h
  · exact ((h.append _).duty.recompute).pass

theorem frameTaken_works (p : Port) (s : State) : Works s (frameTaken p s) :=
  .trans (receiverIdle_works p s) (frameLiveness_works p _)

/-- A request whose owner's part works, works. -/
theorem takeRequest_works (r : Request) (h : Handler) (p : Port) (pl : List Byte) (s : State)
    (hh : ∀ u, Works u (h p pl u).state) : Works s (takeRequest r h p pl s) := by
  have ht := frameTaken_works p s
  unfold takeRequest
  dsimp only
  split
  · split
    · exact answer_works _ _ _ (.trans ht (hh _))
    · exact answer_works _ _ _ ht
  · exact answer_works _ _ _ ht

theorem failFrame_works (p : Port) (k : Option Byte) (s : State) : Works s (failFrame p k s) := by
  unfold failFrame
  split
  · exact answer_works _ _ _ (receiverIdle_works p s)
  · exact receiverIdle_works p s

theorem lossPhase_evolves (p : Port) (s : State) : Evolves s (lossPhase p s) := by
  unfold lossPhase
  split
  · exact .refl s
  · split
    · exact enterDraining_evolves _ _
    · exact .refl s
  · exact enterSafe_evolves _ _

theorem portLoss_works (p : Port) (s : State) : Works s (portLoss p s) := by
  have h1 : Works s (s.modPort p (fun q => { q with live := .lost, window := none })) :=
    .port s p _ fun _ h => noteOk_congr rfl rfl rfl rfl h
  unfold portLoss
  dsimp only
  apply Works.pass
  apply Works.recompute
  apply Works.duty
  refine Works.after ?_ (lossPhase_evolves _ _)
  have h2 : ∀ a, Works s (ownerLoss p (raiseOthers .portLost p (logAppend a
      (s.modPort p (fun q => { q with live := .lost, window := none }))))) := fun a =>
    ((h1.append a).after (.raiseOthers _ p _ rfl)).after (ownerLoss_evolves p _)
  split
  · exact .trans (h2 _) (.prof _ _)
  · exact h2 _

/-! ### Requests any port may send -/

theorem advanceCursor_logOk (l : TransitLog) (p : Port) (n : Nat) (h : LogOk l) :
    LogOk (l.advanceCursor p n) := by
  refine ⟨h.1, fun q => ?_⟩
  have hq := h.2 q
  by_cases hqp : q = p
  · subst hqp
    simp only [TransitLog.advanceCursor, PerPort.get_set_same]
    omega
  · simpa [TransitLog.advanceCursor, hqp] using hq

theorem releaseFreeze_works (p : Port) (s : State) : Works s (releaseFreeze p s) := by
  have h1 : Works s (s.setLog { s.log with freeze := .opened }) := .log s _ id
  exact .trans (h1.append _) (.log _ _ id)

theorem handleLogRead_works (p : Port) (pl : List Byte) (s : State) :
    Works s (handleLogRead p pl s).state := by
  unfold handleLogRead
  dsimp only
  split
  · exact Works.after (.log s _ (advanceCursor_logOk _ _ _)) (.watermarks _)
  · exact .refl s

theorem handleLogRelease_works (p : Port) (pl : List Byte) (s : State) :
    Works s (handleLogRelease p pl s).state := by
  unfold handleLogRelease
  dsimp only
  split
  · exact releaseFreeze_works p s
  · exact releaseFreeze_works p s
  · exact .refl s

theorem handleNoticeRead_works (p : Port) (pl : List Byte) (s : State) :
    Works s (handleNoticeRead p pl s).state :=
  .port s p _ fun _ _ => noteAfter_noteOk _ _

theorem writeMap_noteOk (map : NoticeSet) (mode : NoticeMode) (q : PortState) :
    NoteOk (q.writeMap map mode) := by
  cases mode
  · intro _; rfl
  · intro h; exact absurd h (by simp [PortState.writeMap])

theorem handleNoticeMap_works (p : Port) (pl : List Byte) (s : State) :
    Works s (handleNoticeMap p pl s).state := by
  unfold handleNoticeMap
  dsimp only
  split
  · exact .refl s
  · exact .port s p _ fun _ _ => writeMap_noteOk _ _ _

theorem handleLossAction_works (p : Port) (pl : List Byte) (s : State) :
    Works s (handleLossAction p pl s).state := by
  unfold handleLossAction
  dsimp only
  split
  · exact .refl s
  · split
    · exact .refl s
    · next a _ =>
      have h : Works s (s.modPort p (fun q => { q with action := a, lock := true })) :=
        .port s p _ fun _ h => noteOk_congr rfl rfl rfl rfl h
      exact h.duty.recompute.pass

theorem handleChangeCancel_works (p : Port) (pl : List Byte) (s : State) :
    Works s (handleChangeCancel p pl s).state := by
  unfold handleChangeCancel
  split
  · exact .refl s
  · split
    · exact .refl s
    · split
      · split
        · exact .evolves (cancelChange_evolves _ _)
        · exact .refl s
      · exact .refl s

theorem handleProfileOpen_works (p : Port) (pl : List Byte) (s : State) :
    Works s (handleProfileOpen p pl s).state := by
  simp only [handleProfileOpen]
  split
  · exact .prof s _
  · split <;> exact .refl s

theorem handleProfileWrite_works (p : Port) (pl : List Byte) (s : State) :
    Works s (handleProfileWrite p pl s).state := by
  simp only [handleProfileWrite]
  split
  · exact .refl s
  · split
    · split
      · exact .refl s
      · exact .prof s _
    · exact .refl s

theorem readItem_state (s : State) (x : Profile) (n : Nat) : (readItem s x n).state = s := by
  unfold readItem
  split <;> rfl

theorem handleProfileRead_state (p : Port) (pl : List Byte) (s : State) :
    (handleProfileRead p pl s).state = s := by
  unfold handleProfileRead
  dsimp only
  split
  · exact readItem_state _ _ _
  · split
    · rfl
    · exact readItem_state _ _ _
  · rfl

theorem handleProfileAbandon_works (p : Port) (pl : List Byte) (s : State) :
    Works s (handleProfileAbandon p pl s).state := by
  unfold handleProfileAbandon
  split
  · exact .refl s
  · split
    · exact .prof s _
    · exact .refl s

/-! ### Commit and RESTART -/

theorem commitPhase_evolves (s : State) : Evolves s (commitPhase s) := by
  unfold commitPhase
  dsimp only
  split
  · split
    · exact .trans (.phase _ _ _ (by decide)) (enterSafe_evolves _ _)
    · exact .phase _ _ _ (by decide)
  · exact .refl s

/-- A commit ends in COLD or SAFE (R84). -/
theorem commitPhase_phase {s : State} (h : s.line.phase.commits = true) :
    (commitPhase s).line.phase = .cold ∨ (commitPhase s).line.phase = .safe := by
  unfold commitPhase
  dsimp only
  split
  · split
    · right
      simp [enterSafe]
    · left; simp
  · next hn => cases hp : s.line.phase <;> simp_all [Phase.commits]

theorem evalStall_works {s t : State} (h : Works s t) : Works s (evalStall t) := h.condition _ _

theorem evalLoadConditions_works {s t : State} (h : Works s t) :
    Works s (evalLoadConditions t) := by
  unfold evalLoadConditions
  split <;> exact (h.condition _ _).condition _ _

theorem settleConditions_works {s t : State} (h : Works s t) : Works s (settleConditions t) :=
  evalStall_works (evalLoadConditions_works ((h.duty.idle _).recompute))

theorem resetArrivals_evolves (s : State) : Evolves s (resetArrivals s) :=
  .arbiter s _ (.inl (Nat.le_refl _))

theorem commitLine_evolves (pr : Profile) (s : State) : Evolves s (commitLine pr s) :=
  .records s _ ⟨rfl, rfl, rfl, Nat.zero_le _, fun _ => rfl, .inr (.inl rfl),
    .inl ⟨.inr rfl, .inr rfl⟩⟩

theorem takeWatermark_works (pr : Profile) (p : Port) (s : State) :
    Works s (takeWatermark pr p s) :=
  .port s p _ fun _ h => noteOk_congr rfl rfl rfl rfl h

theorem commitWatermarks_works (pr : Profile) (s : State) : Works s (commitWatermarks pr s) :=
  .after (.trans (takeWatermark_works pr .line s)
    (.trans (takeWatermark_works pr .dryer _) (takeWatermark_works pr .chill _))) (.watermarks _)

theorem commitPorts_works (p : Port) (pr : Profile) (s : State) :
    Works s (commitPorts p pr s) := by
  have h : ∀ (t : State) (q : Port) (u : State), Works s u → Works s (raiseUnderOld s t q u) := by
    intro t q u hu
    unfold raiseUnderOld
    split
    · exact hu.after (.raiseAt _ _ _ rfl)
    · exact hu
  exact h _ _ _ (h _ _ _ (h _ _ _ ((commitWatermarks_works pr s).append _)))

theorem commitProfile_works (p : Port) (s : State) (hs : s.line.phase.commits = true) :
    Works s (commitProfile p s) := by
  have h1 : Works s (resetArrivals (abortChanges s)) :=
    .evolves (.trans (abortChanges_evolves s) (resetArrivals_evolves _))
  have h2 : ∀ pr, Works s (commitLoad pr (commitMotion pr (commitRing pr
      (installProfile (resetArrivals (abortChanges s)))))) := fun pr =>
    .trans (.trans (.trans (.trans h1 (.prof _ _)) (.ring _ _)) (.motion _ _)) (.load _ _ rfl)
  have h3 : ∀ pr, Works s (commitDetectors pr (commitPhase (commitLine pr (commitLoad pr
      (commitMotion pr (commitRing pr (installProfile (resetArrivals (abortChanges s))))))))) := by
    intro pr
    refine .trans (((h2 pr).after (commitLine_evolves _ _)).after (commitPhase_evolves _))
      (.detectors _ _ (.inr ⟨rfl, ?_⟩))
    have hc := commitPhase_phase (s := commitLine pr (commitLoad pr
      (commitMotion pr (commitRing pr (installProfile (resetArrivals (abortChanges s))))))) (by
        simpa [commitLine, commitLoad, commitMotion, commitRing, installProfile, resetArrivals]
          using hs)
    rcases hc with hc | hc <;> simp [hc]
  unfold commitProfile
  dsimp only
  exact settleConditions_works (.trans (h3 _) (commitPorts_works p _ _))

theorem handleProfileCommit_works (p : Port) (pl : List Byte) (s : State) :
    Works s (handleProfileCommit p pl s).state := by
  unfold handleProfileCommit
  split
  · next hc =>
    split
    · exact .refl s
    · split
      · split
        · exact .prof s _
        · exact commitProfile_works p s hc
      · exact .refl s
  · exact .refl s

theorem restartRing_works (s : State) : Works s (restartRing s) := by
  unfold restartRing
  split <;> exact .ring s _

theorem restartLoad_works (s : State) : Works s (restartLoad s) := by
  have h : Works s (s.setLoad (clearLoads s.prof.committed s.load)) := .load s _ rfl
  unfold restartLoad
  dsimp only
  apply Works.duty
  refine h.line _ ?_
  exact ⟨rfl, rfl, rfl, Nat.le_refl _, id, .inl rfl, .inl ⟨.inr rfl, .inr rfl⟩⟩

theorem restartLine_evolves (s : State) : Evolves s (restartLine s) :=
  .records s _ ⟨rfl, rfl, rfl, Nat.zero_le _, fun _ => rfl, .inr (.inl rfl),
    .inl ⟨.inl rfl, .inl rfl⟩⟩

theorem restartLog_works (p : Port) (s : State) : Works s (restartLog p s) := by
  have h : Works s (s.setLog
      { records := [], unread := { line := 0, dryer := 0, chill := 0 },
        skip := { line := 0, dryer := 0, chill := 0 }, freeze := .opened, drops := 0 }) :=
    .log s _ fun _ => ⟨Nat.zero_le _, fun q => by cases q <;> exact Nat.le_refl _⟩
  exact (h.after (.watermarks _)).append _

theorem restartAll_works (p : Port) (s : State) : Works s (restartAll p s) := by
  have h1 : Works s (resetArrivals (abortChanges s)) :=
    .evolves (.trans (abortChanges_evolves s) (resetArrivals_evolves _))
  have h2 := (Works.trans (Works.trans h1 (restartRing_works _)) (restartLoad_works _)).after
    (restartLine_evolves _)
  have h3 : Works s (clearLatches (restartLine (restartLoad (restartRing
      (resetArrivals (abortChanges s)))))) := .trans h2 (.detectors _ _ (.inl rfl))
  have h4 := evalLoadConditions_works ((h3.idle false).recompute)
  exact .trans (.trans h4 (restartLog_works p _))
    (.ports _ _ fun _ _ => noteAfter_noteOk _ _)

theorem handleRestart_works (p : Port) (pl : List Byte) (s : State) :
    Works s (handleRestart p pl s).state := by
  unfold handleRestart
  split
  · exact restartAll_works p s
  · exact .refl s

/-! ### Steps -/

theorem handOff_evolves (pr : Profile) (r : SegRecord) (s : State) : Evolves s (handOff pr r s) := by
  unfold handOff
  split
  · exact .refl s
  · split
    · exact .refl s
    · dsimp only
      split
      · exact .trans (.append _ _) (.raiseAll _ _ rfl)
      · exact .append _ _

theorem ringAdvance_works (pr : Profile) (t : Nat) (s : State) : Works s (ringAdvance pr t s) := by
  unfold ringAdvance
  dsimp only
  refine .trans (t := match ((computeAll pr s.ring t).map (·.record)).getLast? with
    | some r => handOff pr r s
    | none => s) ?_ (.ring _ _)
  split
  · exact .evolves (handOff_evolves _ _ _)
  · exact .refl s

theorem loadStep_works (pr : Profile) (s : State) : Works s (loadStep pr s) := by
  have h : ∀ l : Load, l.floorDuty = s.load.floorDuty →
      Works s (setFloorDuty (evalLoadConditions (s.setLoad l))) := fun l hl =>
    (evalLoadConditions_works (.load s l hl)).duty
  unfold loadStep
  dsimp only
  split
  · unfold loadTrip
    refine Works.after (Works.append _ (h _ ?_)) (enterSafe_evolves _ _)
    rfl
  · refine h _ ?_
    rfl

theorem loadReport_works (pr : Profile) (f : Nat) (s : State) : Works s (loadReport pr f s) :=
  (evalLoadConditions_works (.load s (loadsOf pr s.ring f s.load) rfl)).duty

theorem fillStep_evolves (s : State) : Evolves s (fillStep s) := by
  have h : Evolves s (s.setLine { s.line with fill := s.line.fill - 1 }) :=
    .records s _ ⟨rfl, rfl, rfl, Nat.sub_le _ _, id, .inl rfl, .inl ⟨.inl rfl, .inl rfl⟩⟩
  unfold fillStep
  split
  · dsimp only
    split
    · exact .trans (.trans h (.append _ _)) (.recompute _)
    · exact h
  · exact .refl s

theorem runStep_evolves (s : State) : Evolves s (runStep s) := by
  have h : ∀ (x : Option RunCount) (m : Nat) (r : RunCount), s.line.run = some r →
      Evolves s (s.setLine { s.line with run := x, mark := m }) :=
    fun x m r hr => .records s _
      ⟨rfl, rfl, rfl, Nat.le_refl _, fun hn => absurd (hr.symm.trans hn) (by simp), .inl rfl,
        .inl ⟨.inl rfl, .inl rfl⟩⟩
  unfold runStep
  split
  · exact .refl s
  · next r hr =>
    split
    · split
      · unfold runEnd
        split
        · exact .trans (.trans (h _ _ r hr) (.append _ _)) (.raiseAt _ _ _ rfl)
        · exact .trans (.trans (h _ s.line.mark r hr) (.raiseAt _ _ _ rfl)) (enterDraining_evolves _ _)
      · exact h _ s.line.mark r hr
    · exact .refl s

theorem drainStep_evolves (s : State) : Evolves s (drainStep s) := by
  unfold drainStep
  split
  · next hd =>
    have h : Evolves s (s.setLine { s.line with drain := s.line.drain - 1 }) :=
      .records s _ ⟨rfl, rfl, rfl, Nat.le_refl _, id, .inr (.inr hd.1),
        .inl ⟨.inl rfl, .inl rfl⟩⟩
    dsimp only
    split
    · exact .trans h (endDrain_evolves _)
    · exact h
  · exact .refl s

theorem excessTest_evolves (pr : Profile) (c : Nat) (s : State) :
    Evolves s (excessTest pr c s) := by
  have h : ∀ t : Timer, Evolves s (s.setLine { s.line with excess := t }) := fun t =>
    .records s _ (.of_eq rfl rfl rfl rfl rfl rfl rfl rfl)
  unfold excessTest
  split
  · split
    · split
      · exact .refl s
      · exact h _
    · exact h _
  · exact .refl s

theorem phaseAdvance_evolves (pr : Profile) (c : Nat) (s : State) :
    Evolves s (phaseAdvance pr c s) :=
  .trans (.trans (.trans (fillStep_evolves s) (runStep_evolves _)) (drainStep_evolves _))
    (excessTest_evolves _ _ _)

theorem afterAdvance_works (pr : Profile) (s : State) : Works s (afterAdvance pr s) := by
  unfold afterAdvance
  dsimp only
  have h := (((loadStep_works pr s).idle false).recompute).pass
  exact ((h.after (phaseAdvance_evolves _ _ _)).pass).after (settleObserve_evolves _ _)

theorem issueAdvance_works (pr : Profile) (s : State) : Works s (issueAdvance pr s) := by
  unfold issueAdvance
  dsimp only
  exact .trans (.trans (.motion s _) (ringAdvance_works _ _ _)) (afterAdvance_works _ _)

theorem pulseMotion_works (pr : Profile) (s : State) : Works s (pulseMotion pr s) := by
  unfold pulseMotion
  split
  · exact .motion s _
  · dsimp only
    have h : Works s ((s.setMotion { s.motion with
        state := .moving, dwellTimer := none, stallTimer := startMs pr.stallLimit }).setLine
        { s.line with stallGrace := none }) :=
      Works.line _ (.of_eq rfl rfl rfl rfl rfl rfl rfl rfl) (.motion s _)
    exact ((evalStall_works h).recompute).pass

theorem becomeStill_works (s : State) : Works s (becomeStill s) := by
  unfold becomeStill
  split
  · exact .motion s _
  · dsimp only
    apply Works.pass
    apply Works.recompute
    refine evalStall_works ?_
    refine Works.line _ ?_ (.motion s _)
    exact .of_eq rfl rfl rfl rfl rfl rfl rfl rfl

theorem forward_works (pr : Profile) (s : State) : Works s (forward pr s) := by
  unfold forward
  dsimp only
  split
  · exact .trans (pulseMotion_works pr s) (.motion _ _)
  · split
    · exact .trans (pulseMotion_works pr s) (issueAdvance_works _ _)
    · exact .trans (pulseMotion_works pr s) (.motion _ _)

theorem backward_works (pr : Profile) (s : State) : Works s (backward pr s) := by
  unfold backward
  dsimp only
  split <;> exact .trans (pulseMotion_works pr s) (.motion _ _)

theorem issueDwell_works (pr : Profile) (s : State) : Works s (issueDwell pr s) := by
  unfold issueDwell
  dsimp only
  exact ((Works.trans (Works.trans (.motion s _) (.ring _ _)) (loadStep_works _ _)).recompute).pass

/-! ### The requests of one port -/

theorem answerAtOnce_works (k : ChangeKey) (v : Int) (c : Bool) (r : List Byte) (s : State) :
    Works s (answerAtOnce k v c r s).state := .evolves (takeAtOnce_evolves _ _ _)

theorem answerAdmission_works (pr : Profile) (k : ChangeKey) (v : Int) (c : Bool) (r : List Byte)
    (s : State) : Works s (answerAdmission pr k v c r s).state := by
  unfold answerAdmission
  split
  · exact .refl s
  · next h => exact .evolves (placeChange_evolves h)

theorem handleSpeedRamp_works (p : Port) (pl : List Byte) (s : State) :
    Works s (handleSpeedRamp p pl s).state := by
  simp only [handleSpeedRamp]
  split
  · exact .refl s
  · split
    · exact answerAtOnce_works _ _ _ _ _
    · split
      · exact .refl s
      · split
        · exact .refl s
        · exact answerAdmission_works _ _ _ _ _ _

theorem handleExhaustTarget_works (p : Port) (pl : List Byte) (s : State) :
    Works s (handleExhaustTarget p pl s).state := by
  simp only [handleExhaustTarget]
  split
  · exact .refl s
  · split
    · exact answerAtOnce_works _ _ _ _ _
    · exact answerAdmission_works _ _ _ _ _ _

theorem handleZoneSetpoint_works (p : Port) (pl : List Byte) (s : State) :
    Works s (handleZoneSetpoint p pl s).state := by
  simp only [handleZoneSetpoint]
  split
  · exact .refl s
  · split
    · split
      · split
        · exact answerAtOnce_works _ _ _ _ _
        · exact answerAdmission_works _ _ _ _ _ _
      · split
        · exact answerAtOnce_works _ _ _ _ _
        · exact .refl s
    · exact .refl s

theorem handleChillSetpoint_works (p : Port) (pl : List Byte) (s : State) :
    Works s (handleChillSetpoint p pl s).state := by
  simp only [handleChillSetpoint]
  split
  · exact .refl s
  · split
    · split
      · exact answerAdmission_works _ _ _ _ _ _
      · exact answerAtOnce_works _ _ _ _ _
    · exact .refl s

theorem handleImpressionOn_works (p : Port) (pl : List Byte) (s : State) :
    Works s (handleImpressionOn p pl s).state := by
  simp only [handleImpressionOn]
  split
  · exact .refl s
  · split
    · next hr =>
      split
      · split
        · refine Works.pass (Works.print s _ hr ?_ ?_) <;> rfl
        · exact .refl s
      · exact .refl s
    · exact .refl s

theorem handleImpressionOff_works (p : Port) (pl : List Byte) (s : State) :
    Works s (handleImpressionOff p pl s).state := by
  simp only [handleImpressionOff]
  split
  · exact Works.pass (.evolves (enterDraining_evolves _ _))
  · exact .refl s

theorem handleSolventCharge_works (p : Port) (pl : List Byte) (s : State) :
    Works s (handleSolventCharge p pl s).state := .ring s _

theorem handleJobTag_works (p : Port) (pl : List Byte) (s : State) :
    Works s (handleJobTag p pl s).state := by
  simp only [handleJobTag]
  split
  · exact .ring s _
  · split
    · exact .refl s
    · exact .ring s _
  · exact .refl s

theorem ringVoid_works (n : Nat) (s : State) : Works s (ringVoid n s) :=
  .recompute (.ring s _)

theorem ringRestore_works (pr : Profile) (s : State) : Works s (ringRestore pr s) :=
  .recompute (.ring s _)

theorem recordArrival_works (d : Detector) (n : Nat) (u : Bool) (s : State) :
    Works s (recordArrival d n u s) :=
  .trans (Works.raise _ (Works.append _ (.refl s))) (.detectors _ _ (.inl rfl))

theorem armFreeze_works (pr : Profile) (s : State) : Works s (armFreeze pr s) := by
  unfold armFreeze
  split
  · exact .log s _ id
  · exact .refl s
  · exact .refl s

theorem breakResponse_works (pr : Profile) (d : Detector) (s : State)
    (h : s.line.phase.heated = true) : Works s (breakResponse pr d s) := by
  unfold breakResponse
  dsimp only
  refine .trans ?_ (recordArrival_works _ _ _ _)
  refine .trans ?_ (armFreeze_works _ _)
  refine .after ?_ (abortChanges_evolves _)
  exact .trans (.trans (.breakIn s _ h) (ringVoid_works _ _)) (.ring _ _)

theorem upstreamArrival_works (pr : Profile) (d : Detector) (s : State)
    (h : s.line.phase = .webBreak) : Works s (upstreamArrival pr d s) := by
  unfold upstreamArrival
  dsimp only
  refine .trans ?_ (recordArrival_works _ _ _ _)
  exact .trans (.trans (.breakMove s _ h) (ringVoid_works _ _)) (.ring _ _)

theorem arrival_works (d : Detector) (s : State) : Works s (arrival d s) := by
  unfold arrival
  split
  · exact .refl s
  · split
    · next h => exact breakResponse_works _ _ _ h
    · split
      · next h => exact upstreamArrival_works _ _ _ h.1
      · exact recordArrival_works _ _ _ _

theorem changeDetector_works (d : Detector) (e : DetectorEntry) (s : State) :
    Works s (changeDetector d e s) := by
  have h : Works s (s.putDet d e) := .detectors s _ (.inl rfl)
  simp only [changeDetector]
  split
  · exact .trans h (arrival_works _ _)
  · exact h

theorem handleDetectorSet_works (p : Port) (pl : List Byte) (s : State) :
    Works s (handleDetectorSet p pl s).state := by
  simp only [handleDetectorSet]
  split
  · exact .refl s
  · split
    · exact changeDetector_works _ _ _
    · exact .refl s

theorem handleBreakClear_works (p : Port) (pl : List Byte) (s : State) :
    Works s (handleBreakClear p pl s).state := by
  simp only [handleBreakClear]
  split
  · next hb =>
    split
    · refine Works.pass (.breakOut hb ?_ ?_ ?_ ?_ ?_)
      · split
        · simp [ringRestore, clearLatches]
        · rfl
      · split
        · simp [ringRestore, clearLatches]
        · rfl
      · split
        · simp [ringRestore, clearLatches]
        · rfl
      · split
        · simp [ringRestore, clearLatches]
        · rfl
      · intro h q
        split
        · exact recompute_noteOk (by exact h) q
        · exact h q
    · exact .refl s
  · split
    · exact .detectors s _ (.inl rfl)
    · exact .refl s

theorem handleSafeClear_works (p : Port) (pl : List Byte) (s : State) :
    Works s (handleSafeClear p pl s).state := by
  simp only [handleSafeClear]
  split
  · exact .refl s
  · split
    · split
      · exact (Works.phase _ _ (by decide) (ringRestore_works _ _)).pass
      · exact .refl s
    · exact .refl s

theorem evaluated_works {s t : State} (h : Works s t) : Works s (arbiterPass (evaluateReady t)) :=
  (h.after (evaluateReady_evolves t)).pass

theorem handleZoneReport_works (p : Port) (pl : List Byte) (s : State) :
    Works s (handleZoneReport p pl s).state := by
  simp only [handleZoneReport]
  split
  · exact .refl s
  · split
    · refine Works.after (evaluated_works (Works.pass ?_)) (settleObserve_evolves _ _)
      have h : ∀ pr f u, Works u (reportZoneHigh pr (recompute (loadReport pr f u))) := by
        intro pr f u
        unfold reportZoneHigh
        split
        · exact ((loadReport_works _ _ _).recompute).raise _
        · exact (loadReport_works _ _ _).recompute
      exact .trans (.ring s _) (h _ _ _)
    · exact .refl s

theorem handleChillReport_works (p : Port) (pl : List Byte) (s : State) :
    Works s (handleChillReport p pl s).state := by
  simp only [handleChillReport]
  split
  · exact .refl s
  · split
    · exact Works.after (evaluated_works (Works.pass (.recompute (.ring s _))))
        (settleObserve_evolves _ _)
    · exact .refl s

theorem handlePurgeStart_works (p : Port) (pl : List Byte) (s : State) :
    Works s (handlePurgeStart p pl s).state := by
  simp only [handlePurgeStart]
  split
  · split
    · exact Works.pass (.evolves (.phase _ _ _ (by decide)))
    · exact .refl s
  · exact .refl s

theorem handleCoolDown_works (p : Port) (pl : List Byte) (s : State) :
    Works s (handleCoolDown p pl s).state := by
  simp only [handleCoolDown]
  split
  · exact Works.pass (.evolves (.phase _ _ _ (by decide)))
  · exact .refl s

/-- Every request's owner works. -/
theorem handlerOf_works (r : Request) (p : Port) (pl : List Byte) (s : State) :
    Works s (handlerOf r p pl s).state := by
  cases r
  case ping => exact .refl s
  case statusRead => exact .refl s
  case zoneRead =>
    simp only [handlerOf, handleZoneRead]
    split
    · exact .refl s
    · split <;> exact .refl s
  case ringRead =>
    simp only [handlerOf, handleRingRead]
    split
    · exact .refl s
    · split <;> exact .refl s
  case profileRead =>
    have h := handleProfileRead_state p pl s
    simp only [handlerOf, h]
    exact .refl s
  case logRead => exact handleLogRead_works p pl s
  case logRelease => exact handleLogRelease_works p pl s
  case noticeRead => exact handleNoticeRead_works p pl s
  case noticeMap => exact handleNoticeMap_works p pl s
  case lossAction => exact handleLossAction_works p pl s
  case changeCancel => exact handleChangeCancel_works p pl s
  case profileOpen => exact handleProfileOpen_works p pl s
  case profileWrite => exact handleProfileWrite_works p pl s
  case profileCommit => exact handleProfileCommit_works p pl s
  case profileAbandon => exact handleProfileAbandon_works p pl s
  case restart => exact handleRestart_works p pl s
  case speedRamp => exact handleSpeedRamp_works p pl s
  case impressionOn => exact handleImpressionOn_works p pl s
  case impressionOff => exact handleImpressionOff_works p pl s
  case solventCharge => exact handleSolventCharge_works p pl s
  case jobTag => exact handleJobTag_works p pl s
  case detectorSet => exact handleDetectorSet_works p pl s
  case breakClear => exact handleBreakClear_works p pl s
  case safeClear => exact handleSafeClear_works p pl s
  case zoneReport => exact handleZoneReport_works p pl s
  case zoneSetpoint => exact handleZoneSetpoint_works p pl s
  case exhaustTarget => exact handleExhaustTarget_works p pl s
  case purgeStart => exact handlePurgeStart_works p pl s
  case coolDown => exact handleCoolDown_works p pl s
  case chillReport => exact handleChillReport_works p pl s
  case chillSetpoint => exact handleChillSetpoint_works p pl s

theorem takeFrame_works (p : Port) (k : Byte) (pl : List Byte) (s : State) :
    Works s (takeFrame p k pl s) := by
  unfold takeFrame
  split
  · exact takeRequest_works _ _ _ _ _ fun u => handlerOf_works _ _ _ u
  · exact answer_works _ _ _ (frameTaken_works p s)

theorem takeRx_works (p : Port) (rx : RxByte) (s : State) : Works s (takeRx p rx s) := by
  unfold takeRx
  split
  · unfold takeByte
    split
    · split
      · exact receiverTo_works _ _ _
      · exact .refl s
    · exact receiverTo_works _ _ _
    · dsimp only
      split
      · exact failFrame_works _ _ _
      · split <;> exact receiverTo_works _ _ _
    · dsimp only
      split <;> exact receiverTo_works _ _ _
    · exact receiverTo_works _ _ _
    · split
      · exact takeFrame_works _ _ _ _
      · exact failFrame_works _ _ _
  · split
    · exact .refl s
    · exact failFrame_works _ _ _

/-! ### Every command -/

/-- The state a command's meaning answers. -/
theorem exec_works {c : Instr} {s t : State} (hc : ∀ l, c ≠ .reset l) (h : exec c s = .next t) :
    Works s t := by
  have req : ∀ r p pl, Works s (takeRequest r (handlerOf r) p pl s) := fun r p pl =>
    takeRequest_works _ _ _ _ _ fun u => handlerOf_works _ _ _ u
  cases c
  case reset l => exact absurd rfl (hc l)
  case forwardPulse =>
    simp only [exec, execForwardPulse] at h
    split at h <;> obtain rfl := Host.Outcome.next.inj h
    · exact .motion s _
    · exact .trans (.motion s _) (forward_works _ _)
  case reversePulse =>
    simp only [exec, execReversePulse] at h
    split at h <;> obtain rfl := Host.Outcome.next.inj h
    · exact .motion s _
    · exact .trans (.motion s _) (backward_works _ _)
  case encoderDoubleChange =>
    obtain rfl := Host.Outcome.next.inj h
    exact .motion s _
  case stallTimerExpiry =>
    simp only [exec, execStallTimerExpiry] at h
    split at h <;> obtain rfl := Host.Outcome.next.inj h
    · exact .refl s
    · exact becomeStill_works s
  case dwellTimerExpiry =>
    simp only [exec, execDwellTimerExpiry] at h
    split at h <;> obtain rfl := Host.Outcome.next.inj h
    · exact .refl s
    · exact issueDwell_works _ s
    · exact .motion s _
  case pwmPeriodStart =>
    obtain rfl := Host.Outcome.next.inj h
    exact .pwm s _
  case purgeTimerExpiry =>
    have hn : Works s (s.setLine { s.line with purgeTimer := none }) :=
      .evolves (.records s _ ⟨rfl, rfl, rfl, Nat.le_refl _, id, .inl rfl,
        .inl ⟨.inr rfl, .inl rfl⟩⟩)
    simp only [exec, execPurgeTimerExpiry] at h
    split at h
    · obtain rfl := Host.Outcome.next.inj h
      exact .refl s
    · next pr _ _ =>
      split at h
      · next hp =>
        obtain rfl := Host.Outcome.next.inj h
        have h1 : Works s (s.setLine
            { s.line with
              purgeTimer := some Config.purgeLength, purgeVolume := purgeVolumeAfter pr s }) :=
          .evolves (.records s _ ⟨rfl, rfl, rfl, Nat.le_refl _, id, .inl rfl, .inr hp⟩)
        unfold purgeExpiry
        dsimp only
        split
        · exact (h1.after (enterHeating_evolves _ _)).pass
        · exact h1
      · obtain rfl := Host.Outcome.next.inj h
        exact hn
    · obtain rfl := Host.Outcome.next.inj h
      exact hn
  case stallGraceExpiry =>
    simp only [exec, execStallGraceExpiry] at h
    split at h <;> obtain rfl := Host.Outcome.next.inj h
    · exact .refl s
    · have h1 : Works s (recompute (setIdle true (s.setLine { s.line with stallGrace := none }))) :=
        (Works.idle true (.evolves (.records s { s.line with stallGrace := none }
          (.of_eq rfl rfl rfl rfl rfl rfl rfl rfl)))).recompute
      unfold stallGraceEnds
      dsimp only
      split
      · exact (h1.after (enterDraining_evolves _ _)).pass
      · exact h1.pass
  case excessTimerExpiry =>
    simp only [exec, execExcessTimerExpiry] at h
    split at h <;> obtain rfl := Host.Outcome.next.inj h
    · exact .refl s
    · have h1 : Works s (raiseAll .excess (s.setLine { s.line with excess := none })) :=
        Works.raise _ (.evolves (.records s { s.line with excess := none }
          (.of_eq rfl rfl rfl rfl rfl rfl rfl rfl)))
      unfold excessEnds
      dsimp only
      split
      · exact (h1.after (enterDraining_evolves _ _)).pass
      · exact h1
  case settleTimerExpiry =>
    simp only [exec, execSettleTimerExpiry] at h
    split at h <;> obtain rfl := Host.Outcome.next.inj h
    · exact .refl s
    · exact .evolves (settleTimeout_evolves s)
    · exact .evolves (.arbiter s _ (.inl (Nat.le_refl _)))
  case waitingTimerExpiry key =>
    obtain rfl := Host.Outcome.next.inj h
    exact .evolves (waitingTimeout_evolves key s)
  case windowTimerExpiry p =>
    obtain rfl := Host.Outcome.next.inj h
    have hq : Works s (s.modPort p (fun q => { q with window := none })) :=
      .port s p _ fun _ h => noteOk_congr rfl rfl rfl rfl h
    unfold windowExpiry
    split
    · exact portLoss_works p s
    · exact hq
    · exact hq
    · exact .refl s
  case gapTimerExpiry p =>
    obtain rfl := Host.Outcome.next.inj h
    unfold gapExpiry
    split
    · exact failFrame_works _ _ _
    · exact .refl s
  case badFrame p rx =>
    obtain rfl := Host.Outcome.next.inj h
    exact takeRx_works p rx s
  case unknownKind p k pl =>
    obtain rfl := Host.Outcome.next.inj h
    exact takeFrame_works p k pl s
  case replyTransmissionEnd p =>
    obtain rfl := Host.Outcome.next.inj h
    refine .port s p _ fun q hq => ?_
    unfold PortState.endTransmission PortState.transmit
    split
    · exact noteOk_congr rfl rfl rfl rfl hq
    · split <;> exact noteOk_congr rfl rfl rfl rfl hq
  case notePulseEnd p =>
    obtain rfl := Host.Outcome.next.inj h
    refine .port s p _ fun q hq => ?_
    unfold PortState.endPulse
    split
    · next hm => intro hl; exact absurd (hm.symm.trans hl) (by simp)
    · exact noteOk_congr rfl rfl rfl rfl hq
    · exact hq
  case estopActivation =>
    simp only [exec, execEstopActivation] at h
    split at h <;> obtain rfl := Host.Outcome.next.inj h
    · exact .refl s
    · exact .after (.estop s true) (enterSafe_evolves _ _)
  case estopRelease =>
    obtain rfl := Host.Outcome.next.inj h
    exact .estop s false
  case detectorLevelChange d l =>
    obtain rfl := Host.Outcome.next.inj h
    exact changeDetector_works _ _ s
  case ping p pl =>
    obtain rfl := Host.Outcome.next.inj h
    exact req .ping p pl
  case statusRead p pl =>
    obtain rfl := Host.Outcome.next.inj h
    exact req .statusRead p pl
  case zoneRead p pl =>
    obtain rfl := Host.Outcome.next.inj h
    exact req .zoneRead p pl
  case ringRead p pl =>
    obtain rfl := Host.Outcome.next.inj h
    exact req .ringRead p pl
  case logRead p pl =>
    obtain rfl := Host.Outcome.next.inj h
    exact req .logRead p pl
  case logRelease p pl =>
    obtain rfl := Host.Outcome.next.inj h
    exact req .logRelease p pl
  case noticeRead p pl =>
    obtain rfl := Host.Outcome.next.inj h
    exact req .noticeRead p pl
  case noticeMap p pl =>
    obtain rfl := Host.Outcome.next.inj h
    exact req .noticeMap p pl
  case lossAction p pl =>
    obtain rfl := Host.Outcome.next.inj h
    exact req .lossAction p pl
  case changeCancel p pl =>
    obtain rfl := Host.Outcome.next.inj h
    exact req .changeCancel p pl
  case profileOpen p pl =>
    obtain rfl := Host.Outcome.next.inj h
    exact req .profileOpen p pl
  case profileWrite p pl =>
    obtain rfl := Host.Outcome.next.inj h
    exact req .profileWrite p pl
  case profileRead p pl =>
    obtain rfl := Host.Outcome.next.inj h
    exact req .profileRead p pl
  case profileCommit p pl =>
    obtain rfl := Host.Outcome.next.inj h
    exact req .profileCommit p pl
  case profileAbandon p pl =>
    obtain rfl := Host.Outcome.next.inj h
    exact req .profileAbandon p pl
  case restart p pl =>
    obtain rfl := Host.Outcome.next.inj h
    exact req .restart p pl
  case speedRamp p pl =>
    obtain rfl := Host.Outcome.next.inj h
    exact req .speedRamp p pl
  case impressionOn p pl =>
    obtain rfl := Host.Outcome.next.inj h
    exact req .impressionOn p pl
  case impressionOff p pl =>
    obtain rfl := Host.Outcome.next.inj h
    exact req .impressionOff p pl
  case solventCharge p pl =>
    obtain rfl := Host.Outcome.next.inj h
    exact req .solventCharge p pl
  case jobTag p pl =>
    obtain rfl := Host.Outcome.next.inj h
    exact req .jobTag p pl
  case detectorSet p pl =>
    obtain rfl := Host.Outcome.next.inj h
    exact req .detectorSet p pl
  case breakClear p pl =>
    obtain rfl := Host.Outcome.next.inj h
    exact req .breakClear p pl
  case safeClear p pl =>
    obtain rfl := Host.Outcome.next.inj h
    exact req .safeClear p pl
  case zoneReport p pl =>
    obtain rfl := Host.Outcome.next.inj h
    exact req .zoneReport p pl
  case zoneSetpoint p pl =>
    obtain rfl := Host.Outcome.next.inj h
    exact req .zoneSetpoint p pl
  case exhaustTarget p pl =>
    obtain rfl := Host.Outcome.next.inj h
    exact req .exhaustTarget p pl
  case purgeStart p pl =>
    obtain rfl := Host.Outcome.next.inj h
    exact req .purgeStart p pl
  case coolDown p pl =>
    obtain rfl := Host.Outcome.next.inj h
    exact req .coolDown p pl
  case chillReport p pl =>
    obtain rfl := Host.Outcome.next.inj h
    exact req .chillReport p pl
  case chillSetpoint p pl =>
    obtain rfl := Host.Outcome.next.inj h
    exact req .chillSetpoint p pl
  case byteReceived p rx =>
    obtain rfl := Host.Outcome.next.inj h
    exact takeRx_works p rx s

end Sys2Proof.Machine
end

