-- ==== Sys2Proof/Laws/Step.lean ====
section
/-! SUPPORT. What a step can do, said once: it runs a command on the state with the queue or the model's
counter moved on, or time passes by one microsecond. -/
namespace Sys2Proof.Machine

/-- What a step takes the state to before the command it runs. -/
inductive Prepared : State → State → Prop where
  | front (s : State) (c : Instr) (rest : List Instr) (h : s.pending = c :: rest) :
      Prepared s (s.setPending rest)
  | due (s : State) (h : s.pending = []) : Prepared s s
  | choice (s : State) (h : s.pending = []) : Prepared s { s with freeCount := s.freeCount + 1 }

/-- A step runs one command, or is one microsecond. -/
theorem step_cases {s t : State} (h : step s = .next t) :
    (∃ c u, Prepared s u ∧ exec c u = .next t) ∨
      (s.pending = [] ∧ dueCommands s = [] ∧ t = tick s) := by
  unfold step at h
  split at h
  · next c rest hp => exact .inl ⟨c, _, .front s c rest hp, h⟩
  · next hp =>
    unfold idleStep at h
    split at h
    · next hd => exact .inr ⟨hp, hd, (Host.Outcome.next.inj h).symm⟩
    · next c _ => exact .inl ⟨c, s, .due s hp, h⟩
    · next c d cs _ => exact .inl ⟨_, _, .choice s hp, h⟩

/-- A property that RESET establishes, that every other command keeps, that does not look at the queue
or the model's counter and that a microsecond keeps, is kept by every step. -/
theorem step_keeps {P : State → Prop}
    (hreset : ∀ (l : InputLines) (s : State),
      P { State.afterReset l with pending := s.pending, freeCount := s.freeCount })
    (hworks : ∀ s t, Works s t → P s → P t)
    (hqueue : ∀ s u, Prepared s u → P s → P u)
    (htick : ∀ s, P s → P (tick s)) {s t : State} (h : step s = .next t) (hs : P s) : P t := by
  rcases step_cases h with ⟨c, u, hu, he⟩ | ⟨_, _, rfl⟩
  · by_cases hc : ∃ l, c = .reset l
    · obtain ⟨l, rfl⟩ := hc
      obtain rfl := Host.Outcome.next.inj he
      exact hreset l u
    · exact hworks u t (exec_works (fun l hl => hc ⟨l, hl⟩) he) (hqueue s u hu hs)
  · exact htick s hs

/-- A microsecond leaves the ring, the loads, the envelope, the detectors, the log, the profile and the
queue alone. -/
@[simp] theorem tick_fields (s : State) :
    (tick s).ring = s.ring ∧ (tick s).load = s.load ∧ (tick s).env = s.env ∧
      (tick s).brk = s.brk ∧ (tick s).log = s.log ∧ (tick s).prof = s.prof ∧
      (tick s).pending = s.pending ∧ (tick s).freeCount = s.freeCount := by
  refine ⟨rfl, rfl, rfl, rfl, rfl, rfl, rfl, rfl⟩

/-- A microsecond moves only the timers of the phase unit. -/
@[simp] theorem tick_line (s : State) : (tick s).line = s.line.tick := rfl

@[simp] theorem tick_port (s : State) (p : Port) : (tick s).port p = (s.port p).tick := by
  cases p <;> rfl

end Sys2Proof.Machine
end

