-- ==== Sys2Proof/WellFormed.lean ====
section
/-! DEFINITION. Which commands can reach the part: a frame's payload fits its length byte (R184), an
UNKNOWN_KIND frame's kind names no request (R167), a waiting entry's zone is one of the eight (R1). -/
namespace Sys2Proof

/-- A payload a length byte can announce (R184). -/
def payloadFits (pl : List Byte) : Bool :=
  pl.length ≤ Config.payloadMax

/-- A zone number of the zone map (R1). -/
def ChangeKey.wf : ChangeKey → Bool
  | .speed => true
  | .exhaust => true
  | .zone z => z < 8
  | .chill c => c < 8

/-- The command can reach the part. -/
def Instr.wf : Instr → Bool
  | .reset _ => true
  | .forwardPulse => true
  | .reversePulse => true
  | .encoderDoubleChange => true
  | .stallTimerExpiry => true
  | .dwellTimerExpiry => true
  | .pwmPeriodStart => true
  | .purgeTimerExpiry => true
  | .stallGraceExpiry => true
  | .excessTimerExpiry => true
  | .settleTimerExpiry => true
  | .waitingTimerExpiry key => key.wf
  | .windowTimerExpiry _ => true
  | .gapTimerExpiry _ => true
  | .badFrame _ _ => true
  | .unknownKind _ kind pl => payloadFits pl && (requestOf kind).isNone
  | .replyTransmissionEnd _ => true
  | .notePulseEnd _ => true
  | .estopActivation => true
  | .estopRelease => true
  | .detectorLevelChange _ _ => true
  | .ping _ pl => payloadFits pl
  | .statusRead _ pl => payloadFits pl
  | .zoneRead _ pl => payloadFits pl
  | .ringRead _ pl => payloadFits pl
  | .logRead _ pl => payloadFits pl
  | .logRelease _ pl => payloadFits pl
  | .noticeRead _ pl => payloadFits pl
  | .noticeMap _ pl => payloadFits pl
  | .lossAction _ pl => payloadFits pl
  | .changeCancel _ pl => payloadFits pl
  | .profileOpen _ pl => payloadFits pl
  | .profileWrite _ pl => payloadFits pl
  | .profileRead _ pl => payloadFits pl
  | .profileCommit _ pl => payloadFits pl
  | .profileAbandon _ pl => payloadFits pl
  | .restart _ pl => payloadFits pl
  | .speedRamp _ pl => payloadFits pl
  | .impressionOn _ pl => payloadFits pl
  | .impressionOff _ pl => payloadFits pl
  | .solventCharge _ pl => payloadFits pl
  | .jobTag _ pl => payloadFits pl
  | .detectorSet _ pl => payloadFits pl
  | .breakClear _ pl => payloadFits pl
  | .safeClear _ pl => payloadFits pl
  | .zoneReport _ pl => payloadFits pl
  | .zoneSetpoint _ pl => payloadFits pl
  | .exhaustTarget _ pl => payloadFits pl
  | .purgeStart _ pl => payloadFits pl
  | .coolDown _ pl => payloadFits pl
  | .chillReport _ pl => payloadFits pl
  | .chillSetpoint _ pl => payloadFits pl
  | .byteReceived _ _ => true

end Sys2Proof
end

