-- ==== Sys2Proof/Tests/Slice0.lean ====
section
/-! SUPPORT. Tests on small states: the well-formedness checks, the manual's worked cases, and for every
statement with hypotheses a state and operands that meet them. -/
namespace Sys2Proof.Tests

open Sys2Proof Sys2Proof.Machine

-- Each `decide +kernel` waits for the kernel: one at a time, or the threads that wait use up the memory.
set_option Elab.async false

/-! ### Small states -/

/-- The state a command leads to. -/
def run (c : Instr) (s : State) : State :=
  match exec c s with
  | .next t => t
  | .fault _ => s
  | .refused _ => s

/-- The payload of the reply port `p` sends or holds waiting. -/
def reply (p : Port) (s : State) : List Byte :=
  match (s.port p).tx with
  | some r => r.payload
  | none => []

/-- The line under the default profile in phase `ph`: moving at 100.0 m/min, every port ACTIVE, the zones
at their setpoints, 2000 L/s reported. -/
def plant (ph : Phase) : State :=
  let pr := Profile.default
  let active : PortState := { PortState.reset with live := .active, window := some 500000 }
  let det (n : Nat) : DetectorEntry :=
    { cfg := some { position := n, polarity := .activeLow }, armed := true, latch := false,
      level := .high }
  let s : State :=
    { State.reset with
      prof :=
        { committed := some pr, staged := pr, holder := none, code := .valid, errorItem := none }
      ring :=
        { rebuildRing pr { State.reset.ring with inputs := [1200, 1200, 1200, 1200, 120, 120] } with
          charge := 900 }
      motion :=
        { State.reset.motion with
          state := .moving, vMeas := 1000, tStep := 300000, stallTimer := some 500000,
          last := some { instant := 0, elapsed := 300000 } }
      load := { State.reset.load with flow := 2000, loads := [0, 0, 0, 0] }
      line :=
        { State.reset.line with
          phase := ph, setpoints := [1200, 1200, 1200, 1200, 120, 120], exhaust := 4000,
          speedGrant := 1000, heatInhibit := !ph.heated,
          permit := ph == .ready || ph == .printing,
          purgeTimer := if ph = .purge then some 100000 else none }
      brk :=
        { dets := { brk0 := det 0, brk1 := det 43, brk2 := det 55, brk3 := det 55 },
          pb := if ph = .webBreak then some 43 else none }
      ports := { line := active, dryer := active, chill := active } }
  { s with env := envelopeOf s }

/-- `plant ph` with the web standing. -/
def standing (ph : Phase) : State :=
  (plant ph).setMotion
    { (plant ph).motion with
      state := .still, vMeas := 0, last := none, stallTimer := none, dwellTimer := some 1000000 }

/-- A ZONE change of zone 3 to `v`. -/
def entry (v : Int) : PendingEntry :=
  { key := .zone 3, value := v, arrival := 0, status := .queued, timer := some 30000000,
    ahead := false }

/-- A ZONE change whose waiting timer has run out. -/
def entry0 : PendingEntry := { entry 1300 with timer := some 0 }

/-- `s` with the entries of `l` pending and `c` in flight. -/
def waiting (l : List PendingEntry) (c : Option InFlight) (s : State) : State :=
  s.setArb { s.arb with list := l, inFlight := c, settleTimer := c.map (fun _ => 10000000) }

/-- A SPEED change in flight, granted up to `g`, on its way to `v`. -/
def ramp (v g : Int) : InFlight := { key := .speed, value := v, arrival := 0, granted := g }

/-- `s` with port `p` changed by `f`. -/
def at' (p : Port) (f : PortState → PortState) (s : State) : State := s.modPort p f

/-- The profile before it is first committed, held by the LINE port. -/
def opened : State :=
  State.reset.setProf { State.reset.prof with holder := some .line, code := .staged }

/-! ### Well-formedness -/

theorem test_wf_takes_ping : (Instr.ping .line []).wf = true := by decide
theorem test_wf_refuses_long_payload :
    (Instr.ping .line (List.replicate 241 0)).wf = false := by decide +kernel
theorem test_wf_takes_full_payload :
    (Instr.ping .line (List.replicate 240 0)).wf = true := by decide +kernel
theorem test_wf_refuses_zone_8 : (Instr.waitingTimerExpiry (.zone 8)).wf = false := by decide
theorem test_wf_refuses_chill_8 : (Instr.waitingTimerExpiry (.chill 8)).wf = false := by decide
theorem test_wf_refuses_known_kind : (Instr.unknownKind .line 0x01 []).wf = false := by decide
theorem test_wf_refuses_long_unknown :
    (Instr.unknownKind .line 0x0B (List.replicate 241 0)).wf = false := by decide +kernel
theorem test_wf_takes_reply_kind : (Instr.unknownKind .line 0x81 []).wf = true := by decide

/-! ### Words, frames, codes -/

theorem test_no_word_spells_a_command : decodeTableWord 8 1 = none := rfl

/-- The CRC of R165 over the nine ASCII digits 1 to 9, the usual check value of this CRC. -/
theorem test_crc_check_value :
    crcOf [0x31, 0x32, 0x33, 0x34, 0x35, 0x36, 0x37, 0x38, 0x39] = 0x29B1 := by decide +kernel

/-- A PING arriving byte by byte is answered as PING. -/
theorem test_ping_by_bytes :
    (match execAll (bytesOn .line (frameBytes 0x01 [])) State.reset with
      | .next t => decide (t = run (.ping .line []) State.reset)
      | _ => false) = true := by decide +kernel

/-- 0xA5 on the line: start bit, its bits least significant first, stop bit (R164). -/
theorem test_byte_levels :
    byteLevels 0xA5 =
      [.low, .high, .low, .high, .low, .low, .high, .low, .high, .high] := by decide

/-- TXD right after PING: the start bit of the sync byte; 5 µs later its first data bit, a 1; high when the
reply has gone (R164, R169). -/
theorem test_txd :
    let s := run (.ping .line []) State.reset
    let later := fun n => (s.modPort .line (fun q => { q with txTimer := some n })).port .line
    (State.reset.port .line).txd = .high ∧ (s.port .line).txTimer = some 261 ∧
      (later 261).txd = .low ∧ (later 256).txd = .high ∧ (later 252).txd = .low ∧
      ((run (.replyTransmissionEnd .line) s).port .line).txd = .high := by decide +kernel

/-- A FILLED record of v_meas 500 at TIME_MS 0x010203 (R187). -/
theorem test_filled_record :
    ({ body := .filled 500, stamp := 0x010203 } : LogRecord).bytes =
      [2, 4, 1, 0xF4, 0, 0, 0, 0, 0, 0, 0, 0, 0, 1, 2, 3] := by decide

theorem test_signed_field : signed16 0xFE70 = -400 ∧ i16 (-400) = [0xFE, 0x70] := by decide

theorem test_request_codes_differ :
    (allRequests.map (·.code)).Nodup ∧ allRequests.length = 31 := by decide

/-! ### Worked cases of the manual -/

/-- 250 / 500 zone loads, e_eff and the release of 900 mg (section 2.4's formula, R14). -/
theorem test_release_of_900 :
    (computeRecord .default [1200] 50000 { zone := 0, entry := defaultDryerZone 12 80 }
      { seq := 0, kind := .printed, solvent := 900, heat := some { temp := 1092, peak := 1092 },
        stranded := false, tag := none }) =
      { zone := 0, released := 106,
        record :=
          { seq := 0, kind := .printed, solvent := 794,
            heat := some { temp := 1108, peak := 1108 }, stranded := false, tag := none } } := by
  decide +kernel

/-- R56's table of high times. -/
theorem test_high_times :
    [0, 52, 64, 103, 200, 256].map highTimeOf = [0, 203, 250, 402, 781, 1000] := by decide

/-- R45's default C_lim. -/
theorem test_default_c_lim : Profile.default.cLim = 12 := by decide

/-- The default profile passes validation with N = 56. -/
theorem test_default_profile_commits :
    Profile.default.firstFailure = none ∧ Profile.default.ringLength = 56 := by decide +kernel

/-- The worked case of section 4: from 1450 the trial passes at 7825 and not at 7826. -/
theorem test_chill_trial_at_7825 :
    let rolls := rollsOf .default [0, 0, 0, 0, 200, 200]
    trialPasses .default rolls (stepTimeAt .default 7825) (some 1450) = true ∧
      trialPasses .default rolls (stepTimeAt .default 7826) (some 1450) = false := by
  decide +kernel

/-! ### One step per command, on small states -/

theorem test_reset_keeps_queue :
    (run (.reset resetLines) { plant .printing with pending := [.forwardPulse] }).pending =
      [.forwardPulse] := by decide +kernel
theorem test_forward_pulse : (run .forwardPulse (plant .ready)).motion.p = 1 := by decide +kernel
theorem test_reverse_pulse : (run .reversePulse (plant .ready)).motion.d = 1 := by decide +kernel
theorem test_double_change :
    (run .encoderDoubleChange (plant .ready)).motion.encRef = { a := .high, b := .high } := by
  decide +kernel
theorem test_stall : (run .stallTimerExpiry (plant .ready)).motion.state = .still := by
  decide +kernel
theorem test_dwell : (run .dwellTimerExpiry (standing .ready)).ring.lastKind = .dwell := by
  decide +kernel
theorem test_pwm : (run .pwmPeriodStart State.reset).exhFloorHigh = true := by decide +kernel
theorem test_purge : (run .purgeTimerExpiry (plant .purge)).line.purgeVolume = 200 := by
  decide +kernel
theorem test_estop : (run .estopActivation (plant .printing)).line.phase = .safe := by
  decide +kernel
theorem test_break :
    (run (.detectorLevelChange .brk1 .low) (plant .printing)).brk.pb = some 43 := by
  decide +kernel
theorem test_status_length :
    (reply .line (run (.statusRead .line []) (plant .printing))).length = 87 := by decide +kernel
theorem test_zone_read :
    (reply .line (run (.zoneRead .line [3]) (plant .ready))).take 5 = [0, 1, 8, 36, 43] := by
  decide +kernel
theorem test_zone_read_refused :
    reply .line (run (.zoneRead .line [6]) (plant .ready)) = [0x12] := by decide +kernel
theorem test_ring_read :
    (reply .line (run (.ringRead .line [44, 12]) (plant .ready))).length = 147 := by
  decide +kernel
theorem test_ring_read_refused :
    reply .line (run (.ringRead .line [45, 12]) (plant .ready)) = [0x12] := by decide +kernel
theorem test_port_refused :
    reply .dryer (run (.impressionOn .dryer [0, 0, 0, 0]) (plant .ready)) = [0x13] := by
  decide +kernel
theorem test_unknown_kind :
    reply .line (run (.unknownKind .line 0x0B []) State.reset) = [0x21] := by decide +kernel
theorem test_impression_on :
    (run (.impressionOn .line [0, 0, 2, 1]) (plant .ready)).line.fill = 56 := by decide +kernel
theorem test_commit :
    (run (.profileCommit .line []) opened).line.phase = .cold := by decide +kernel
theorem test_restart :
    (run (.restart .line []) (plant .cold)).log.records.length = 1 := by decide +kernel
theorem test_loss_action_locks :
    reply .line
      (run (.lossAction .line [0])
        (run (.replyTransmissionEnd .line) (run (.lossAction .line [1]) State.reset))) =
      [0x16, 0x01] := by decide +kernel
theorem test_job_tag_zero :
    reply .line (run (.jobTag .line [1, 0, 0]) State.reset) = [0x12] := by decide +kernel
theorem test_change_cancel_none :
    reply .dryer (run (.changeCancel .dryer [1, 0]) (plant .ready)) = [0x00, 0x00] := by
  decide +kernel

/-! ### Witnesses: a state and operands for the hypotheses of every statement that has any -/

theorem witness_StepRunsFrontCommand :
    ({ plant .ready with pending := [.forwardPulse, .reversePulse] } : State).pending =
      .forwardPulse :: [.reversePulse] := rfl

/-- An idle queue with nothing due, with one expiry due, with two. -/
theorem witness_IdleStep :
    State.reset.pending = [] ∧ dueCommands State.reset = [] ∧
      dueCommands ((plant .ready).setMotion { (plant .ready).motion with stallTimer := some 0 }) =
        [.stallTimerExpiry] ∧
      dueCommands
        { (plant .purge).setMotion { (plant .purge).motion with stallTimer := some 0 } with
          pwm := { elapsed := 1000, highTime := 0 } } = [.stallTimerExpiry, .pwmPeriodStart] ∧
      State.reset.time.sub < 999 ∧
      999 ≤ (State.reset.setTime { us := 999, ms := 0, sub := 999 }).time.sub := by
  decide +kernel

theorem witness_UncommittedPulse : State.reset.prof.committed = none := rfl

/-- Expiries due at every kind of timer, at 0 and not at 1. -/
theorem witness_IdleStep_due :
    let s := (plant .ready).setLine
      { (plant .ready).line with stallGrace := some 0, excess := some 1, purgeTimer := none }
    let a := s.setArb { s.arb with list := [entry0], settleTimer := some 0 }
    let u := (a.modPort .line (fun q =>
      { q with gap := some 0, txTimer := some 0, window := some 1, pulse := some 0 })).modPort .dryer
        (fun q => { q with window := some 0 })
    dueCommands u =
      [.stallGraceExpiry, .settleTimerExpiry, .waitingTimerExpiry (.zone 3), .gapTimerExpiry .line,
       .replyTransmissionEnd .line, .notePulseEnd .line, .windowTimerExpiry .dryer] ∧
    (tick ((plant .ready).setMotion
      { (plant .ready).motion with last := some { instant := 0, elapsed := 4294967295 } })).motion.last =
      some { instant := 0, elapsed := 4294967295 } := by decide +kernel

/-- A pulse against debt, one within a segment, reverse pulses above and at P = 0, moving and still. -/
theorem witness_PulsesCount :
    (plant .ready).prof.committed = some .default ∧ (plant .ready).motion.state = .moving ∧
      (standing .ready).motion.state = .still ∧
      0 < ((plant .ready).setMotion { (plant .ready).motion with d := 1 }).motion.d ∧
      (plant .ready).motion.d = 0 ∧
      ((plant .ready).setMotion { (plant .ready).motion with p := 248 }).motion.p + 1 <
        Profile.default.pulsesPerSeg ∧
      0 < ((plant .ready).setMotion { (plant .ready).motion with p := 1 }).motion.p ∧
      (plant .ready).motion.p = 0 ∧ (standing .ready).arb.list = [] ∧
      Notice.stall.inSet ((run .forwardPulse (standing .ready)).port .line).holding = false := by
  decide +kernel

/-- `plant ph` one pulse before the end of a segment. -/
def lastPulse (ph : Phase) : State :=
  (plant ph).setMotion { (plant ph).motion with p := 249 }

theorem witness_AdvanceStep :
    (lastPulse .printing).prof.committed = some .default ∧ (lastPulse .printing).motion.d = 0 ∧
      Profile.default.pulsesPerSeg ≤ (lastPulse .printing).motion.p + 1 ∧
      (computeAll .default (lastPulse .printing).ring 300000).length = 56 := by decide +kernel

theorem witness_StallExpiry :
    (standing .ready).motion.stallTimer = none ∧
      (plant .ready).prof.committed = some .default ∧
      (plant .ready).motion.stallTimer.isSome = true := by decide +kernel

theorem witness_DwellExpiry :
    (standing .ready).prof.committed = some .default ∧
      (standing .ready).motion.dwellTimer.isSome = true ∧
      Profile.default.places[43]? = some { zone := 3, entry := defaultDryerZone 8 32 } ∧
      Profile.default.places[44]? = some { zone := 4, entry := defaultChillZone } ∧
      (standing .ready).ring.records.length = 56 ∧
      Profile.default.used[5]? = some defaultChillZone ∧
      Profile.default.dryers[3]? = some (defaultDryerZone 8 32) ∧
      Profile.default.zones[Profile.default.used.length]? = some defaultNoneZone ∧
      Profile.default.zoneStart 4 = 44 := by decide +kernel

/-- A record of `kind` with solvent `x` at temperature `t`. -/
def web (kind : SegKind) (x : Nat) (t : Int) : SegRecord :=
  { seq := 0, kind := kind, solvent := x, heat := some { temp := t, peak := t },
    stranded := false, tag := none }

/-- A VOID record. -/
def hole : SegRecord :=
  { seq := 0, kind := .void, solvent := 0, heat := none, stranded := false, tag := none }

theorem witness_HeatingRule :
    hole.kind = .void ∧ (web .printed 900 250).kind ≠ .void ∧
      (web .printed 900 250).heat = some { temp := 250, peak := 250 } ∧
      (((1200 : Int) - 1195).natAbs * 40 < 256) := by decide

theorem witness_ReleaseRule :
    let c := computeRecord .default [1200] 50000 { zone := 0, entry := defaultDryerZone 12 80 }
      (web .printed 900 1100)
    let d := computeRecord .default [1200] 50000 { zone := 0, entry := defaultDryerZone 12 80 }
      (web .printed 900 250)
    c.record.heat = some { temp := 1115, peak := 1115 } ∧
      Profile.default.releaseTemp ≤ 1115 ∧ 0 < (web .printed 900 1100).solvent ∧
      d.record.heat = some { temp := 398, peak := 398 } ∧ 398 < Profile.default.releaseTemp ∧
      (web .blank 0 250).kind ≠ .printed ∧ 0 < Profile.default.dryers.length := by decide +kernel

/-- A void record, a wet printed one, a dry printed one, a blank one. -/
theorem witness_ExitRecord :
    hole.kind = .void ∧ (web .printed 151 300).kind = .printed ∧
      decide (Profile.default.wetLimit < (web .printed 151 300).solvent) = true ∧
      decide (Profile.default.wetLimit < (web .printed 150 320).solvent) = false ∧
      decide (Profile.default.setLimit < (320 : Int)) = false ∧ (web .blank 0 250).kind = .blank := by
  decide

theorem witness_BreakRingOperations :
    (1 : Nat) < 2 ∧ [web .printed 1 1, hole, web .blank 0 1][2]? = some (web .blank 0 1) ∧
      hole.kind = .void ∧ (web .blank 0 1).kind ≠ .void := by decide

theorem witness_StepLoads :
    (standing .ready).prof.committed = some .default ∧
      TakesStep .default .dwellTimerExpiry (standing .ready) ∧
      TakesStep .default .forwardPulse (lastPulse .printing) :=
  ⟨by decide +kernel, .inr ⟨rfl, by decide +kernel⟩,
    .inl ⟨rfl, by decide +kernel, by decide +kernel⟩⟩

/-- Hot printed web in the whole dryer over a long dwell: a load of 4000, and the counter one below
TRIP_GRACE. -/
def flooded (ph : Phase) : State :=
  let s := standing ph
  (s.setRing
    { s.ring with records := (List.range 56).map (fun _ => web .printed 60000 1200) }).setLoad
    { s.load with flow := 1, tripCount := 19 }

theorem witness_LoadTrip :
    (flooded .cold).prof.committed = some .default ∧ (flooded .cold).load.tripCount < 20 ∧
      (run .dwellTimerExpiry (flooded .cold)).load.tripCount = Profile.default.tripGrace ∧
      (flooded .cold).line.phase ≠ .unconfigured ∧ (flooded .cold).line.phase ≠ .safe ∧
      (flooded .safe).line.phase = .safe ∧
      (run .dwellTimerExpiry (flooded .safe)).load.tripCount = Profile.default.tripGrace := by
  decide +kernel

/-- Every forcing condition, and every row of the table with none holding. -/
theorem witness_FloorDutyRule :
    State.reset.prof.committed = none ∧ (plant .safe).line.phase = .safe ∧
      floorDuty (plant .heating) = 64 ∧ floorDuty (plant .cold) = 0 ∧
      floorDuty (plant .purge) = 200 ∧
      Profile.default.loadTrip ≤
        ((plant .cold).setLoad { (plant .cold).load with peak := 1000 }).load.peak ∧
      (((plant .cold).modPort .dryer
        (fun q => { q with live := .lost, action := .limit })).port .dryer).action = .limit := by
  decide +kernel

theorem witness_PwmStage : (999 : Nat) < 1000 ∧ 256 ≤ 256 ∧ (1 : Nat) ≤ 255 := by decide

/-- A stopped timer; an expiry that leaves the volume below PURGE_VOLUME; one that reaches it with the
ready test holding and one with it failing. -/
theorem witness_PurgeExpiry :
    let full := (plant .purge).setLine { (plant .purge).line with purgeVolume := 199800 }
    let cold := full.setRing { full.ring with inputs := [250, 250, 250, 250, 120, 120] }
    (plant .ready).line.purgeTimer = none ∧ (plant .purge).line.purgeTimer.isSome = true ∧
      (plant .purge).line.phase = .purge ∧ (plant .purge).prof.committed = some .default ∧
      Profile.default.purgeFlow ≤ (plant .purge).load.flow ∧
      (plant .purge).line.purgeVolume + 2000 / 10 < Profile.default.purgeVolume ∧
      Profile.default.purgeVolume ≤ full.line.purgeVolume + 2000 / 10 ∧ full.arb.list = [] ∧
      readyTest .default full = true ∧ readyTest .default cold = false := by decide +kernel

/-- A heated phase with the idle flag clear and set, a phase that is not heated, no profile. -/
theorem witness_HeatCapTable :
    State.reset.prof.committed = none ∧ (plant .ready).prof.committed = some .default ∧
      (recompute (plant .ready)).env.heatCaps[3]? = some 2200 ∧
      (recompute (setIdle true (plant .ready))).env.heatCaps[3]? = some 800 ∧
      (recompute (plant .cold)).env.heatCaps[3]? = some 0 ∧
      (recompute (plant .ready)).env.heatCaps[4]? = none := by decide +kernel

/-- A roll with no position, one with positions, an input for each CHILL zone. -/
theorem witness_ChillTrialRule :
    ({ entry := defaultNoneZone, temp := 200 } : Roll).entry.span = 0 ∧
      Profile.default.chills[1]? = some defaultChillZone ∧
      (plant .ready).ring.inputs[Profile.default.dryers.length + 1]? = some 120 ∧
      (rollsOf .default (plant .ready).ring.inputs).length = 2 := by decide +kernel

theorem witness_CeilingIsLeastComponent :
    State.reset.prof.committed = none ∧ (plant .printing).prof.committed = some .default ∧
      (plant .printing).motion.vMeas ≤ 1000 ∧
      (plant .cold).env.ceiling = 300 ∧ (plant .ready).env.ceiling = 12000 ∧
      (recompute ((plant .ready).setLine { (plant .ready).line with phase := .cold })).env.ceiling <
        (plant .ready).motion.vMeas := by decide +kernel

/-- T_in present and absent, a trial that passes somewhere, bounds in order. -/
theorem witness_ChillComponentIsGreatest :
    (plant .ready).prof.committed = some .default ∧ (recompute (plant .ready)).env.tIn = some 250 ∧
      (recompute ((plant .ready).setRing
        { (plant .ready).ring with records := (List.range 56).map (fun _ => hole) })).env.tIn =
        none ∧
      1 ≤ Profile.default.crawlLimit ∧
      Profile.default.crawlLimit ≤ Profile.default.speedMax := by decide +kernel

theorem witness_PredictedExit :
    State.reset.prof.committed = none ∧ (plant .ready).prof.committed = some .default ∧
      (recompute (plant .ready)).env.tIn = some 250 := by decide +kernel

theorem witness_PhaseChangeEffects :
    (plant .ready).line.phase = .ready ∧ (plant .ready).line.phase ≠ .safe ∧
      (plant .ready).line.phase.heated = true ∧ Phase.safe.heated = false := by decide +kernel

/-- Entry to the heated phases while STILL and while MOVING; a QUEUED decrease and increase at the entry to
DRAINING; a HELD entry at its end; changes of two ports standing at a change to SAFE. -/
theorem witness_PhaseChangeEffects_changes :
    let s := waiting [entry 1100, entry 1300] (some (ramp 3000 2000)) (plant .printing)
    let d := waiting [{ entry 1100 with status := .held, timer := none }] none (plant .draining)
    (standing .purge).motion.state = .still ∧ (plant .purge).motion.state = .moving ∧
      (standing .purge).line.phase.heated = false ∧ Phase.heating.heated = true ∧
      s.arb.list[0]? = some (entry 1100) ∧ (entry 1100).key = .zone 3 ∧
      (1100 : Int) < s.line.setpoints.getD 3 0 ∧ ¬(1300 : Int) < s.line.setpoints.getD 3 0 ∧
      (phaseWrite .draining .stall s).arb.list.map (·.status) = [.held, .queued] ∧
      d.line.phase = .draining ∧ d.prof.committed = some .default ∧
      (phaseWrite .heating .drainDone d).arb.list.map (·.timer) = [some 30000000] ∧
      s.arb.inFlight = some (ramp 3000 2000) ∧ keyOwner (entry 1300).key = .dryer ∧
      ((phaseWrite .safe .estop s).arb.outcomes.get .dryer).map (·.value) = some 1300 ∧
      ((phaseWrite .safe .estop s).arb.outcomes.get .line).map (·.value) = some 2000 ∧
      (phaseWrite .safe .estop s).arb.outcomes.get .chill = none := by decide +kernel

/-- The invariants hold after reset, and a step answers a next state. -/
theorem witness_StepKeeps :
    LinesFollowPhase State.reset ∧ DutyForced State.reset ∧ CountsFollowPhase State.reset ∧
      EnvelopeCurrent State.reset ∧ DutyCurrent State.reset ∧ LogBounded State.reset ∧
      PendingBounded State.reset ∧ NoteFollowsPending State.reset ∧ RingWhole State.reset ∧
      RecordsAgree State.reset ∧ step State.reset = .next (tick State.reset) := by
  refine ⟨⟨rfl, rfl⟩, fun _ => rfl, ?_, rfl, rfl, ⟨by decide, fun p => by cases p <;> decide⟩,
    Nat.zero_le _, fun p _ => by cases p <;> decide +kernel, ⟨rfl, trivial⟩,
    fun r hr => absurd hr List.not_mem_nil, rfl⟩
  exact ⟨fun _ => ⟨rfl, rfl⟩, fun _ => rfl, fun _ => ⟨rfl, rfl⟩, by decide +kernel⟩

theorem witness_EstopTakesSafe :
    (plant .printing).line.estopActive = false ∧ (plant .printing).line.phase ≠ .unconfigured ∧
      (plant .printing).line.phase ≠ .safe ∧
      (run .estopActivation (plant .safe)).line.estopActive = true ∧
      (plant .safe).line.estopActive = false ∧ (plant .safe).line.phase = .safe ∧
      0 < Profile.default.speedMax := by decide +kernel

/-- `plant ph` with cold zones: the ready test fails. -/
def cooled (ph : Phase) : State :=
  (plant ph).setRing { (plant ph).ring with inputs := [250, 250, 250, 250, 120, 120] }

theorem witness_ReadyTestRule :
    (plant .heating).prof.committed = some .default ∧ readyTest .default (plant .heating) = true ∧
      readyTest .default (cooled .heating) = false ∧ (plant .heating).line.phase = .heating ∧
      readyTest .default (plant .ready) = true ∧ readyTest .default (cooled .ready) = false ∧
      (plant .draining).line.phase = .draining ∧ (plant .cold).line.phase = .cold := by
  decide +kernel

theorem witness_ImpressionOn :
    let u := frameTaken .line (plant .ready)
    (frameTaken .line State.reset).prof.committed = none ∧
      u.prof.committed = some .default ∧ u.line.phase = .ready ∧
      Profile.default.printMin ≤ u.motion.vMeas ∧ u.motion.vMeas ≤ u.env.ceiling ∧
      u.allActive = true ∧ (frameTaken .line (standing .ready)).motion.vMeas < 500 ∧
      fieldAt [0, 0, 0, 2] 3 1 = 2 ∧ fieldAt [0, 0, 2, 1] 0 3 = 2 := by decide +kernel

/-- `plant ph` with the youngest printed record at position 2. -/
def printedWeb (ph : Phase) : State :=
  (plant ph).setRing
    { (plant ph).ring with
      records := (plant ph).ring.records.set 2 (web .printed 900 250) }

theorem witness_ImpressionOff :
    (frameTaken .line (plant .ready)).line.phase ≠ .printing ∧
      (frameTaken .line (plant .printing)).prof.committed = some .default ∧
      (frameTaken .line (plant .printing)).line.phase = .printing ∧
      (frameTaken .line (printedWeb .printing)).ring.records[2]? = some (web .printed 900 250) ∧
      ((frameTaken .line (printedWeb .printing)).ring.records.take 2).all
        (fun r => r.kind != .printed) = true ∧
      (frameTaken .line (plant .printing)).ring.records.all (fun r => r.kind != .printed) =
        true := by decide +kernel

/-- `plant ph` right after the ring took an ADVANCE in phase `ph`, with counts. -/
def stepped (ph : Phase) (kind : SegKind) (fill drain : Nat) (run : Option RunCount) : State :=
  let s := printedWeb ph
  (s.setRing { s.ring with lastEntry := some { kind := kind, phase := ph } }).setLine
    { s.line with fill := fill, drain := drain, run := run }

theorem witness_CountsAtAdvance :
    (plant .printing).counted = false ∧ (stepped .printing .printed 2 0 none).counted = true ∧
      1 < (stepped .printing .printed 2 0 none).line.fill ∧
      (stepped .printing .printed 1 0 none).line.fill = 1 ∧
      (stepped .printing .printed 0 0 (some { base := 5, current := 2, repeats := false })).counted =
        true ∧
      (stepped .printing .printed 0 0
        (some { base := 5, current := 1, repeats := true })).line.phase = .printing ∧
      (stepped .printing .printed 0 0
        (some { base := 5, current := 1, repeats := false })).drainNow = 54 ∧
      (stepped .draining .blank 0 2 none).drained = true ∧
      (stepped .draining .blank 0 1 none).line.drain = 1 ∧
      (stepped .draining .blank 0 1 none).isReady = true ∧
      (let s := stepped .draining .blank 0 1 none
       (s.setRing { s.ring with inputs := [] }).isReady) = false := by decide +kernel

/-- v_meas 1000 at the bound and above it, the excess timer stopped and running; a run that ends with no
PRINTED record in the ring. -/
theorem witness_CountsAtAdvance_excess :
    let slow := (plant .ready).setLine { (plant .ready).line with speedGrant := 949 }
    let bound := (plant .ready).setLine { (plant .ready).line with speedGrant := 950 }
    let running := slow.setLine { slow.line with excess := some 5 }
    let dry := (plant .printing).setRing
      { (plant .printing).ring with lastEntry := some { kind := .printed, phase := .printing } }
    slow.line.phase.heated = true ∧ min 12000 slow.line.speedGrant + 50 < slow.motion.vMeas ∧
      ¬min 12000 bound.line.speedGrant + 50 < bound.motion.vMeas ∧ slow.line.excess = none ∧
      running.line.excess.isSome = true ∧ (plant .cold).line.phase.heated = false ∧
      dry.counted = true ∧ dry.drainNow = 0 ∧ dry.line.phase = .printing ∧
      dry.isReady = true := by decide +kernel

theorem witness_GraceExpiries :
    let s := (printedWeb .printing).setLine
      { (printedWeb .printing).line with stallGrace := some 0, excess := some 0 }
    let r := (plant .ready).setLine
      { (plant .ready).line with stallGrace := some 0, excess := some 0 }
    (plant .ready).line.stallGrace = none ∧ (plant .ready).line.excess = none ∧
      s.line.stallGrace.isSome = true ∧ s.line.excess.isSome = true ∧
      s.line.phase.heated = true ∧ s.drainNow ≠ 0 ∧ s.prof.committed = some .default ∧
      r.line.phase ≠ .printing ∧ r.line.phase.heated = true ∧ r.arb.list = [] ∧
      (plant .printing).drainNow = 0 ∧ (plant .printing).arb.list = [] ∧
      (plant .printing).isReady = true ∧ (cooled .printing).isReady = false := by
  decide +kernel

theorem witness_PurgeStartAndCoolDown :
    let u := frameTaken .dryer (plant .cold)
    u.line.phase = .cold ∧ u.allActive = true ∧ u.anyLatch = false ∧ u.prof.holder = none ∧
      (frameTaken .dryer ((plant .cold).modPort .line
        (fun q => { q with live := .quiet }))).allActive = false ∧
      (frameTaken .dryer (plant .ready)).line.phase = .ready ∧ u.arb.list = [] := by
  decide +kernel

theorem witness_ClearsLeadToPurge :
    let u := frameTaken .line (standing .webBreak)
    let v := frameTaken .line (standing .safe)
    let active := run (.detectorLevelChange .brk1 .low) (plant .safe)
    u.prof.committed = some .default ∧ u.line.phase = .webBreak ∧ u.signalsClear = true ∧
      u.motion.state = .still ∧ (frameTaken .line (plant .webBreak)).motion.state = .moving ∧
      v.line.phase = .safe ∧ v.signalsClear = true ∧ v.line.estopActive = false ∧
      v.motion.state = .still ∧ v.allActive = true ∧
      v.load.peak < Profile.default.loadWarn ∧ v.anyLatch = false ∧
      (frameTaken .line active).signalsClear = false ∧
      (frameTaken .line active).anyLatch = true := by decide +kernel

/-- An arrival at BRK1 in a heated phase; in BREAK upstream of p_b and at it; in SAFE; and a level change
that is none. -/
theorem witness_ArrivalsByPhase :
    let s := plant .printing
    let lowered := fun (d : Detector) (x : State) => { x.det d with level := Level.low }
    s.prof.committed = some .default ∧ (s.det .brk1).armed = true ∧
      (lowered .brk1 s).armed = true ∧ (s.det .brk1).signal = false ∧
      (lowered .brk1 s).signal = true ∧ s.line.phase.heated = true ∧
      (plant .webBreak).brk.pb = some 43 ∧ (lowered .brk0 (plant .webBreak)).place < 43 ∧
      43 ≤ (lowered .brk1 (plant .webBreak)).place ∧
      (lowered .brk1 (plant .safe)).signal = true ∧ (plant .safe).line.phase = .safe ∧
      (s.det .brk1).level = .high := by decide +kernel

theorem witness_DetectorCommands :
    (frameTaken .line State.reset).prof.committed = none ∧
      (frameTaken .line (plant .ready)).prof.committed ≠ none ∧
      fieldAt [3, 1, 1] 0 1 = detectorNumber .brk3 ∧ fieldAt [4, 1, 1] 0 1 = 4 ∧
      fieldAt [3, 2, 1] 1 1 = 2 ∧ fieldAt [3, 1, 2] 2 1 = 2 := by decide +kernel

theorem witness_ChangesTakenAtOnce :
    let u := frameTaken .line (plant .ready)
    let v := frameTaken .dryer (plant .ready)
    let w := frameTaken .dryer (plant .cold)
    let x := frameTaken .chill (plant .ready)
    u.prof.committed = some .default ∧ fieldAt [3, 0xE8, 0, 1] 0 2 ≤ u.line.speedGrant ∧
      v.line.exhaust ≤ fieldAt [0x0F, 0xA0] 0 2 ∧ w.line.phase.heated = false ∧
      w.line.phase = .cold ∧ Profile.default.dryers[3]? = some (defaultDryerZone 8 32) ∧
      v.line.phase.heated = true ∧
      min (max (1200 : Int) 1200) (min 2200 (v.env.heatCaps.getD 3 0)) =
        v.line.setpoints.getD 3 0 ∧
      Profile.default.dryers.length ≤ 4 ∧ Profile.default.used[4]? = some defaultChillZone ∧
      min (max (120 : Int) 120) 300 ≤ x.line.setpoints.getD 4 0 := by decide +kernel

theorem witness_UnsafeChangesAreAdmitted :
    let u := frameTaken .line (plant .ready)
    let v := frameTaken .dryer (plant .ready)
    let x := frameTaken .chill (plant .ready)
    (frameTaken .line State.reset).prof.committed = none ∧ u.prof.committed = some .default ∧
      u.line.speedGrant < fieldAt [0x07, 0xD0, 0, 1] 0 2 ∧
      u.line.speedGrant < min (fieldAt [0x07, 0xD0, 0, 1] 0 2) u.env.ceiling ∧
      (frameTaken .line (plant .safe)).line.phase = .safe ∧
      min 2000 (frameTaken .line (plant .cold)).env.ceiling ≤
        (frameTaken .line (plant .cold)).line.speedGrant ∧
      fieldAt [0, 1] 0 2 < v.line.exhaust ∧ v.line.phase.heated = true ∧
      Profile.default.dryers.length ≤ 4 ∧ Profile.default.used.length ≤ 6 ∧
      min (max (1300 : Int) 1200) (min 2200 (v.env.heatCaps.getD 3 0)) ≠
        v.line.setpoints.getD 3 0 ∧
      x.line.setpoints.getD 4 0 < min (max (200 : Int) 120) 300 := by decide +kernel

theorem witness_AdmissionPlacesEntry :
    (waiting [] (some (ramp 3000 2000)) (plant .ready)).arb.inFlight = some (ramp 3000 2000) ∧
      (waiting (List.replicate 8 (entry 1300)) none (plant .ready)).arb.list.all
        (fun e => e.key != .exhaust) = true ∧
      (waiting [entry 1300] none (plant .ready)).arb.list[0]? = some (entry 1300) ∧
      (entry 1300).key = .zone 3 ∧
      (1100 : Int) < (plant .draining).line.setpoints.getD 3 0 := by decide +kernel

theorem witness_PassGrantsBest :
    let s := waiting [entry 1300] none (plant .ready)
    s.prof.committed = some .default ∧ s.arb.inFlight = none ∧
      s.arb.list[0]? = some (entry 1300) ∧ (entry 1300).status = .queued ∧
      headroom .default s (.zone 3) 1300 = some 1300 ∧ s.line.phase.heated = true ∧
      headroom .default s (.chill 4) 200 = some 200 ∧
      (waiting [] (some (ramp 3000 2000)) s).arb.inFlight ≠ none := by decide +kernel

/-- A SPEED grant behind another entry; a CHILL change with T_in present, and absent; the trial passing at
no value; a change in COLD that has headroom and one that has none. -/
theorem witness_PassGrantsBest_headroom :
    let s := waiting [{ entry 1300 with status := .held },
      { key := .speed, value := 3000, arrival := 1, status := .queued, timer := none,
        ahead := false }] none (plant .ready)
    let absent := s.setEnv { s.env with tIn := none }
    let hot := (s.setEnv { s.env with tIn := some 3500 }).setMotion { s.motion with tStep := 30000 }
    headroom .default s .speed 3000 = some 2000 ∧ s.arb.list[1]?.map (·.key) = some .speed ∧
      (arbiterPass s).arb.list.map (·.ahead) = [true] ∧ s.env.tIn = some 250 ∧
      Profile.default.used[4]? = some defaultChillZone ∧
      headroom .default absent (.chill 4) 400 = some 300 ∧
      headroom .default hot (.chill 4) 200 = none ∧
      (plant .cold).line.phase = .cold ∧
      headroom .default (plant .cold) (.zone 3) 1300 = some 1300 ∧
      headroom .default (plant .cold) (.zone 3) 1200 = none := by decide +kernel

theorem witness_EndsOfChanges :
    let s := waiting [entry 1300] (some (ramp 3000 2000)) (plant .ready)
    (plant .ready).arb.settleTimer = none ∧ s.arb.inFlight = some (ramp 3000 2000) ∧
      s.arb.settleTimer.isSome = true ∧ s.arb.list[0]? = some (entry 1300) ∧
      (plant .ready).arb.list = [] ∧
      (frameTaken .line State.reset).prof.committed = none ∧
      changeKeyOf 0 0 = none ∧ changeKeyOf 3 3 = some (.zone 3) ∧
      Profile.default.used.length ≤ 6 ∧ 3 < Profile.default.used.length ∧
      keyOwner (.zone 3) = .dryer ∧ keyOwner .speed ≠ .dryer := by decide +kernel

theorem witness_ObservationsSettle :
    let c := ramp 3000 1000
    let s := waiting [] (some c) (plant .ready)
    let t := s.setArb { s.arb with settleCount := 7 }
    s.prof.committed = some .default ∧ s.arb.inFlight = some c ∧
      observes .default s .advance c.key = some true ∧ s.arb.settleCount + 1 < 8 ∧
      8 ≤ t.arb.settleCount + 1 ∧ c.value ≤ 3000 ∧ ¬c.value ≤ s.line.speedGrant ∧
      competes .default s = false ∧
      competes .default (waiting [entry 1300] (some c) (plant .ready)) = true ∧
      observes .default s .zoneReport c.key = none := by decide +kernel

/-- A remainder behind the last entry noted ahead of it, and at the head where none is. -/
theorem witness_ObservationsSettle_remainder :
    let a := { entry 1300 with ahead := true }
    a.ahead = true ∧ (entry 1100).ahead = false ∧
      insertRemainder (entry 1) [a, entry 1100] = [a, entry 1, entry 1100] ∧
      insertRemainder (entry 1) [entry 1100] = [entry 1, entry 1100] := by decide +kernel

/-- A log with 240 records, one port having read none of them. -/
def fullLog (freeze : Freeze) : State :=
  State.reset.setLog
    { records := List.replicate 240 { body := .runMark 1, stamp := 0 },
      unread := { line := 240, dryer := 0, chill := 0 },
      skip := { line := 255, dryer := 0, chill := 0 }, freeze := freeze, drops := 0 }

theorem witness_LogAppendRule :
    (fullLog .frozen).log.freeze = .frozen ∧ (fullLog .opened).log.freeze ≠ .frozen ∧
      240 ≤ (fullLog .opened).log.records.length ∧
      (fullLog .opened).log.unread.get .line = 240 ∧ (fullLog .opened).log.unread.get .dryer = 0 ∧
      ¬240 ≤ State.reset.log.records.length ∧ (fullLog (.armed 1)).log.freeze = .armed (0 + 1) ∧
      (fullLog (.armed 0)).log.freeze = .armed 0 := by decide +kernel

theorem witness_LogReadAndRelease :
    (0 : Byte) = 0 ∧ 14 < (15 : Byte).toNat ∧ (14 : Byte) ≠ 0 ∧ (14 : Byte).toNat ≤ 14 ∧
      (frameTaken .line State.reset).log.freeze = .opened ∧
      (frameTaken .line (fullLog .frozen)).log.freeze ≠ .opened := by decide +kernel

/-- Ports never heard, ACTIVE and LOST; the losses under NOTE, SAFE and LIMIT. -/
theorem witness_PortLiveness :
    let lost := (plant .ready).modPort .line (fun q => { q with live := .lost, window := none })
    let noted := (plant .ready).modPort .line (fun q => { q with action := .note })
    let limited := (printedWeb .printing).modPort .line (fun q => { q with action := .limit })
    (State.reset.port .line).live ≠ .lost ∧ (lost.port .line).live = .lost ∧ lost.arb.list = [] ∧
      (State.reset.port .line).window = none ∧ (noted.port .line).window.isSome = true ∧
      (noted.port .line).live = .active ∧ (noted.port .line).action = .note ∧
      ((plant .ready).port .line).action = .safe ∧ (limited.port .line).action = .limit ∧
      limited.line.phase = .printing ∧ limited.drainNow ≠ 0 ∧
      ((plant .ready).arb.list.all (fun e => keyOwner e.key == .line)) = true ∧
      ((plant .printing).modPort .line (fun q => { q with action := .limit })).drainNow = 0 := by
  decide +kernel

theorem witness_ReceivedFrameIsCommand :
    (State.reset.port .line).rx = .hunt ∧ ([] : List Byte).length ≤ 240 ∧
      (List.replicate 240 (0 : Byte)).length ≤ 240 := by decide +kernel

/-- A receiver in each state of a frame, its gap timer running. -/
def receiving (rx : Receiver) : State :=
  State.reset.modPort .line (fun q => { q with rx := rx, gap := some 2000 })

theorem witness_FramesThatTakeNoRequest :
    (State.reset.port .line).rx = .hunt ∧
      ((receiving (.kind 0xFFFF)).port .line).rx = .kind 0xFFFF ∧
      ((receiving (.length 1 0)).port .line).rx = .length 1 0 ∧ 240 < (241 : Byte).toNat ∧
      ((receiving (.payload 1 2 [] 0)).port .line).rx = .payload 1 2 [] 0 ∧
      ((receiving (.check 1 [] 0 (some 1))).port .line).rx = .check 1 [] 0 (some 1) ∧
      (1 : Byte) ++ (1 : Byte) ≠ (0 : Word16) ∧
      ((receiving (.kind 0xFFFF)).port .line).gap.isSome = true ∧
      (allRequests.all (fun r => r.code != 0x0B)) = true ∧
      acceptedOn .impressionOn .dryer = false ∧ acceptedOn .ping .dryer = true ∧
      lengthFits .ping 1 = false := by decide +kernel

theorem witness_ReplyTransmission :
    let r : Reply := { kind := 0x81, payload := [0] }
    let q := (State.reset.modPort .line (fun q => { q with tx := some r, waiting := some r }))
    (State.reset.port .line).tx = none ∧ (q.port .line).tx = some r ∧
      (q.port .line).waiting = some r ∧ (State.reset.port .line).waiting = none ∧
      ((q.modPort .line (fun q => { q with txTimer := some 100 })).port .line).txTimer = some 100 ∧
      (frameBytes 0x81 [0])[((261 - 100) * 230400 / 1000000) / 10]? = some 0 ∧
      (frameBytes 0x81 [0]).length ≤ (261 * 230400 / 1000000) / 10 ∧
      (List.replicate 10 Level.low)[9]? = some .low := by
  decide +kernel

theorem witness_NoticesAndNoteLine :
    let pulsed := State.reset.modPort .line
      (fun q => { q with mode := .pulsed, pulse := some 20, holding := 0x2000 })
    (run .estopActivation (plant .ready)).port .line ≠ (plant .ready).port .line ∧
      Notice.phase.inSet ((run .estopActivation (plant .ready)).port .line).pendingSet = true ∧
      Notice.phase.inSet (State.reset.port .line).pendingSet = false ∧
      (pulsed.port .line).mode = .pulsed ∧ (State.reset.port .line).mode = .latched ∧
      (pulsed.port .line).pulse.isSome = true ∧ (State.reset.port .line).pulse = none ∧
      ((frameTaken .line pulsed).port .line).holding &&& ((frameTaken .line pulsed).port .line).map
        ≠ 0 ∧
      ((frameTaken .line State.reset).port .line).holding &&&
        ((frameTaken .line State.reset).port .line).map = 0 ∧
      1 < (2 : Byte).toNat := by decide +kernel

theorem witness_ReadsChangeNothing :
    (frameTaken .line State.reset).prof.committed = none ∧
      (frameTaken .line (plant .ready)).prof.committed = some .default ∧
      Profile.default.used.length ≤ (6 : Byte).toNat ∧
      Profile.default.used[(5 : Byte).toNat]? = some defaultChillZone ∧
      (44 : Byte).toNat + (12 : Byte).toNat ≤ Profile.default.ringLength ∧
      ¬(45 : Byte).toNat + (12 : Byte).toNat ≤ Profile.default.ringLength ∧
      hole.kind = .void ∧ hole.heat = none ∧ (web .printed 900 250).kind ≠ .void ∧
      (web .printed 900 250).heat ≠ none := by decide +kernel

theorem witness_SettingsAreWritten :
    0 < ((0 : Byte) ++ (1 : Byte)).toNat ∧ ((0 : Byte) ++ (0 : Byte)).toNat = 0 ∧
      1 < (2 : Byte).toNat ∧ 2 < (3 : Byte).toNat ∧
      ((frameTaken .line State.reset).port .line).lock = false ∧
      ((frameTaken .line (run (.lossAction .line [1]) State.reset)).port .line).lock = true := by
  decide +kernel

/-- 60000 mg is taken as it is and 60001 is clamped. -/
theorem witness_SettingsAreWritten_charge :
    ((0xEA : Byte) ++ (0x60 : Byte)).toNat = 60000 ∧
      ((0xEA : Byte) ++ (0x61 : Byte)).toNat = 60001 ∧
      reply .line (run (.solventCharge .line [0xEA, 0x60]) State.reset) = [0x00, 0xEA, 0x60] ∧
      reply .line (run (.solventCharge .line [0xEA, 0x61]) State.reset) = [0x01, 0xEA, 0x60] := by
  decide +kernel

theorem witness_ProfileIsEdited :
    Profile.default.zones.length = 8 ∧ (Profile.default.writeItem 0x03 1000).isSome = true ∧
      Profile.default.writeItem 0x03 999 = none ∧ Profile.default.item 0x29 = none ∧
      Profile.default.item 0x40 = some 1 ∧ (frameTaken .line State.reset).prof.holder = none ∧
      (frameTaken .line opened).prof.holder = some .line ∧
      (frameTaken .dryer opened).prof.holder = some .line ∧
      (frameTaken .line (plant .ready)).prof.committed = some .default ∧
      1 < (2 : Byte).toNat := by decide +kernel

/-- The last id of every block, and the ids about it that name no item. -/
theorem witness_ProfileIsEdited_items :
    itemSpec 0 = none ∧ itemSpec 1 = some ⟨100, 2000, 500⟩ ∧ itemSpec 0x28 = some ⟨0, 240, 40⟩ ∧
      itemSpec 0x29 = none ∧ itemSpec 0x40 = some ⟨0, 2, 1⟩ ∧ itemSpec 0x7F = some ⟨1, 500, 1⟩ ∧
      itemSpec 0x83 = none ∧ itemSpec 0x8E = some ⟨0, 1, 1⟩ ∧ itemSpec 0x93 = none ∧
      itemSpec 0x9A = some ⟨1, 240, 32⟩ ∧ itemSpec 0x9B = none ∧ itemSpec 0x9C = none ∧
      (plainValues .default)[39]? = some 40 ∧ (plainValues .default)[40]? = none ∧
      Profile.default.zones[7]? = some defaultNoneZone := by decide +kernel

theorem witness_CommitSetsEveryBlock :
    let u := frameTaken .line opened
    let bad := opened.setProf
      { opened.prof with staged := { Profile.default with printMin := 300 } }
    (frameTaken .line (plant .ready)).line.phase = .ready ∧ u.line.phase = .unconfigured ∧
      u.prof.holder = some .line ∧ u.prof.staged.firstFailure = none ∧
      u.line.estopActive = false ∧ (frameTaken .line State.reset).prof.holder = none ∧
      (frameTaken .line bad).prof.staged.firstFailure = some 0x14 ∧
      (frameTaken .line (plant .cold)).line.phase = .cold := by decide +kernel

/-- ESTOP active at the first commit; another port holding the profile; changes standing at a commit in COLD;
the log of each commit. -/
theorem witness_CommitSetsEveryBlock_cases :
    let stopped := run .estopActivation opened
    let v := frameTaken .dryer opened
    let cold := waiting [entry 1300] (some (ramp 3000 2000))
      ((plant .cold).setProf { (plant .cold).prof with holder := some .line })
    let after := run (.profileCommit .line []) cold
    stopped.line.estopActive = true ∧ stopped.line.phase = .unconfigured ∧
      stopped.prof.holder = some .line ∧ stopped.prof.staged.zones.length = 8 ∧
      (run (.profileCommit .line []) stopped).log.records.map (·.body) =
        [.phase .unconfigured .cold .commit 0, .phase .cold .safe .estop 0,
         .profile .line 56 .safe] ∧
      v.line.phase = .unconfigured ∧ v.prof.holder = some .line ∧ Port.line ≠ Port.dryer ∧
      reply .dryer (run (.profileCommit .dryer []) opened) = [0x14] ∧
      after.log.records.map (·.body) = [.profile .line 56 .cold] ∧
      (after.arb.outcomes.get .dryer).map (·.reason) = some .aborted := by decide +kernel

theorem witness_RestartClearsTheRun :
    (frameTaken .line (plant .ready)).line.phase = .ready ∧
      (frameTaken .line (plant .cold)).line.phase = .cold ∧
      (frameTaken .line State.reset).line.phase = .unconfigured ∧
      (frameTaken .line State.reset).prof.committed = none := by decide +kernel

/-- A ZONE_REPORT of 2000 L/s with zone 3 above its cap, and a CHILL_REPORT. -/
theorem witness_ReportsAreTaken :
    let pl : List Byte := u16 2000 ++ i16 1200 ++ i16 1200 ++ i16 1200 ++ i16 2251
    let u := frameTaken .dryer (plant .ready)
    2 ≤ pl.length ∧ pl.length % 2 = 0 ∧ u.prof.committed = some .default ∧
      (signedValues (pl.drop 2)).length = Profile.default.dryers.length ∧
      (signedValues (pl.drop 2))[3]? = some 2251 ∧
      heatCap .default u.line.phase u.env.idle (defaultDryerZone 8 32) + 50 <
        min (max (2251 : Int) (-400)) 3500 ∧
      (frameTaken .dryer State.reset).prof.committed = none ∧
      (signedValues (u16 200 ++ u16 200)).length = Profile.default.chills.length ∧
      (signedValues (u16 200)).length ≠ Profile.default.chills.length ∧ u.arb.list = [] := by
  decide +kernel

/-- An EXHAUST, a ZONE and a CHILL change in flight, each observed by its report and not by the other. -/
theorem witness_ReportsAreTaken_observed :
    let zones : List Byte := u16 2000 ++ i16 1200 ++ i16 1200 ++ i16 1200 ++ i16 1200
    let with' := fun key => waiting [] (some { key := key, value := 2000, arrival := 0, granted := 2000 })
      ((plant .ready).setLine { (plant .ready).line with exhaust := 2000 })
    let counts := fun s => (run (.zoneReport .dryer zones) s).arb.settleCount
    let rolls := fun s => (run (.chillReport .chill (i16 120 ++ i16 120)) s).arb.settleCount
    counts (with' .exhaust) = 1 ∧ counts (with' (.zone 3)) = 1 ∧ counts (with' (.chill 4)) = 0 ∧
      rolls (with' (.chill 4)) = 1 ∧ rolls (with' (.zone 3)) = 0 ∧ counts (with' .speed) = 0 := by
  decide +kernel

end Sys2Proof.Tests
end

section
/-! PROOFS. The segment computation of the transit ring, record by record: heating (R13)
and release (R14). -/
namespace Sys2Proof.Machine

/-! ### Scaled coefficients -/

theorem kEff_le (pr : Profile) (t : Nat) (z : ZoneItems) : kEff pr t z ≤ 256 :=
  Nat.min_le_left ..

theorem eEff_le (pr : Profile) (t : Nat) (z : ZoneItems) : eEff pr t z ≤ 256 :=
  Nat.min_le_left ..

/-! ### Heating (R13) -/

/-- A record at or below the zone's temperature warms, at most up to it: the scaled gap lies between 0
and the whole gap, and division by 256 keeps that order. -/
theorem heatOnce_of_le {k : Nat} {a temp : Int} (hk : k ≤ 256) (h : temp ≤ a) :
    temp ≤ heatOnce k a temp ∧ heatOnce k a temp ≤ a := by
  have hgap : 0 ≤ a - temp := by omega
  have hlow : 0 ≤ ((a - temp) * k).tdiv 256 := Int.tdiv_nonneg (by positivity) (by decide)
  have hhigh : ((a - temp) * k).tdiv 256 ≤ a - temp :=
    calc ((a - temp) * k).tdiv 256
        ≤ ((a - temp) * 256).tdiv 256 :=
          Int.tdiv_le_tdiv (by decide) (mul_le_mul_of_nonneg_left (by exact_mod_cast hk) hgap)
      _ = a - temp := Int.mul_tdiv_cancel _ (by decide)
  unfold heatOnce
  omega

/-- R13 truncates toward zero, so it treats cooling as heating with every temperature negated. -/
theorem heatOnce_neg (k : Nat) (a temp : Int) :
    heatOnce k (-a) (-temp) = -heatOnce k a temp := by
  have hgap : (-a - -temp) * (k : Int) = -((a - temp) * k) := by ring
  unfold heatOnce
  rw [hgap, Int.neg_tdiv]
  omega

theorem heatOnce_of_ge {k : Nat} {a temp : Int} (hk : k ≤ 256) (h : a ≤ temp) :
    a ≤ heatOnce k a temp ∧ heatOnce k a temp ≤ temp := by
  have hneg := heatOnce_of_le hk (neg_le_neg h)
  rw [heatOnce_neg] at hneg
  omega

theorem heatOnce_between {k : Nat} (hk : k ≤ 256) (a temp : Int) :
    min temp a ≤ heatOnce k a temp ∧ heatOnce k a temp ≤ max temp a := by
  rcases le_total temp a with h | h
  · have := heatOnce_of_le hk h
    omega
  · have := heatOnce_of_ge hk h
    omega

theorem heatOnce_of_small_gap {k : Nat} {a temp : Int} (h : (a - temp).natAbs * k < 256) :
    heatOnce k a temp = temp := by
  have hzero : ((a - temp) * k).tdiv 256 = 0 := by
    rw [← Int.natAbs_eq_zero, Int.natAbs_tdiv, Int.natAbs_mul, Int.natAbs_natCast]
    exact Nat.div_eq_of_lt h
  simp [heatOnce, hzero]

theorem heatRecord_of_void {r : SegRecord} (k : Nat) (a : Int) (hv : r.kind = .void) :
    heatRecord k a r = r := by
  simp [heatRecord, hv]

theorem heatRecord_of_heat {r : SegRecord} {h : SegHeat} (k : Nat) (a : Int) (hv : r.kind ≠ .void)
    (hh : r.heat = some h) :
    heatRecord k a r =
      { r with
        heat := some { temp := heatOnce k a h.temp, peak := max h.peak (heatOnce k a h.temp) } } := by
  simp [heatRecord, hv, hh]

theorem heatRecord_of_no_heat {r : SegRecord} (k : Nat) (a : Int) (hh : r.heat = none) :
    heatRecord k a r = r := by
  simp [heatRecord, hh]

/-- Heating touches the temperatures alone. -/
theorem heatRecord_keeps (k : Nat) (a : Int) (r : SegRecord) :
    (heatRecord k a r).kind = r.kind ∧ (heatRecord k a r).solvent = r.solvent := by
  by_cases hv : r.kind = .void
  · simp [heatRecord_of_void k a hv]
  · cases hh : r.heat with
    | none => simp [heatRecord_of_no_heat k a hh]
    | some h => simp [heatRecord_of_heat k a hv hh]

@[simp] theorem heatRecord_kind (k : Nat) (a : Int) (r : SegRecord) :
    (heatRecord k a r).kind = r.kind :=
  (heatRecord_keeps k a r).1

@[simp] theorem heatRecord_solvent (k : Nat) (a : Int) (r : SegRecord) :
    (heatRecord k a r).solvent = r.solvent :=
  (heatRecord_keeps k a r).2

/-! ### Release (R14) -/

/-- A fraction `e / 256` of `x`, rounded up, is no more than `x`. -/
theorem ceilDiv_mul_256_le {e : Nat} (x : Nat) (he : e ≤ 256) : ceilDiv (x * e) 256 ≤ x := by
  have := Nat.mul_le_mul_left x he
  unfold ceilDiv
  omega

theorem ceilDiv_256_pos {n : Nat} (h : 0 < n) : 1 ≤ ceilDiv n 256 := by
  unfold ceilDiv
  omega

theorem releases_iff (pr : Profile) (z : ZoneItems) (r : SegRecord) :
    releases pr z r = true ↔
      r.kind = .printed ∧ z.kind = .dryer ∧ 0 < r.solvent ∧
        ∃ h, r.heat = some h ∧ pr.releaseTemp ≤ h.temp := by
  cases hh : r.heat <;> simp [releases, hh, and_assoc]

theorem releasedOf_of_releases {pr : Profile} {z : ZoneItems} {r : SegRecord} (t : Nat)
    (h : releases pr z r = true) :
    releasedOf pr t z r = ceilDiv (r.solvent * eEff pr t z) 256 := by
  simp [releasedOf, h]

theorem releasedOf_of_not_releases {pr : Profile} {z : ZoneItems} {r : SegRecord} (t : Nat)
    (h : ¬ releases pr z r = true) : releasedOf pr t z r = 0 := by
  simp [releasedOf, h]

theorem releasedOf_of_not_printed_or_dryer {pr : Profile} {z : ZoneItems} {r : SegRecord} (t : Nat)
    (h : r.kind ≠ .printed ∨ z.kind ≠ .dryer) : releasedOf pr t z r = 0 := by
  refine releasedOf_of_not_releases t fun hrel => ?_
  obtain ⟨hprinted, hdryer, -, -⟩ := (releases_iff pr z r).mp hrel
  exact h.elim (· hprinted) (· hdryer)

theorem releasedOf_of_cold_or_dry {pr : Profile} {z : ZoneItems} {r : SegRecord} {h : SegHeat}
    (t : Nat) (hh : r.heat = some h) (hcold : h.temp < pr.releaseTemp ∨ r.solvent = 0) :
    releasedOf pr t z r = 0 := by
  refine releasedOf_of_not_releases t fun hrel => ?_
  obtain ⟨-, -, hsolvent, h', hh', htemp⟩ := (releases_iff pr z r).mp hrel
  obtain rfl : h' = h := Option.some.inj (hh'.symm.trans hh)
  omega

theorem releasedOf_le_solvent (pr : Profile) (t : Nat) (z : ZoneItems) (r : SegRecord) :
    releasedOf pr t z r ≤ r.solvent := by
  by_cases h : releases pr z r = true
  · rw [releasedOf_of_releases t h]
    exact ceilDiv_mul_256_le r.solvent (eEff_le pr t z)
  · rw [releasedOf_of_not_releases t h]
    exact Nat.zero_le _

theorem releaseSums_getElem? (pr : Profile) (cs : List Computed) {z : Nat}
    (hz : z < pr.dryers.length) : (releaseSums pr cs)[z]? = some (releaseSum cs z) := by
  simp [releaseSums, hz]

/-! ### One record at its place -/

section
variable (pr : Profile) (inputs : List Int) (t : Nat) (pl : Place) (r : SegRecord)

@[simp] theorem computeRecord_zone : (computeRecord pr inputs t pl r).zone = pl.zone := rfl

/-- What a record releases is computed on the record after heating. -/
theorem computeRecord_released :
    (computeRecord pr inputs t pl r).released =
      releasedOf pr t pl.entry (heatRecord (kEff pr t pl.entry) (inputs.getD pl.zone 0) r) := rfl

@[simp] theorem computeRecord_heat :
    (computeRecord pr inputs t pl r).record.heat =
      (heatRecord (kEff pr t pl.entry) (inputs.getD pl.zone 0) r).heat := rfl

theorem computeRecord_solvent :
    (computeRecord pr inputs t pl r).record.solvent =
      r.solvent - (computeRecord pr inputs t pl r).released := by
  simp [computeRecord]

theorem computeRecord_released_le : (computeRecord pr inputs t pl r).released ≤ r.solvent := by
  rw [computeRecord_released]
  exact (releasedOf_le_solvent ..).trans_eq (heatRecord_solvent ..)

theorem computeRecord_released_of_not_printed_or_dryer
    (h : r.kind ≠ .printed ∨ pl.entry.kind ≠ .dryer) :
    (computeRecord pr inputs t pl r).released = 0 := by
  rw [computeRecord_released]
  exact releasedOf_of_not_printed_or_dryer t (by rwa [heatRecord_kind])

theorem computeRecord_of_void (hv : r.kind = .void) :
    (computeRecord pr inputs t pl r).record = r := by
  have hout : releasedOf pr t pl.entry r = 0 :=
    releasedOf_of_not_printed_or_dryer t (.inl (by simp [hv]))
  simp [computeRecord, heatRecord_of_void _ _ hv, hout]

variable {pr inputs t pl r} {h : SegHeat}

theorem computeRecord_heat_of_heat (hv : r.kind ≠ .void) (hh : r.heat = some h) :
    let temp := heatOnce (kEff pr t pl.entry) (inputs.getD pl.zone 0) h.temp
    (computeRecord pr inputs t pl r).record.heat =
      some { temp := temp, peak := max h.peak temp } := by
  rw [computeRecord_heat, heatRecord_of_heat _ _ hv hh]

/-- The amount of R14 for a PRINTED record in a DRYER zone, at or above RELEASE_TEMP after heating. -/
theorem computeRecord_released_of_hot (hprinted : r.kind = .printed)
    (hdryer : pl.entry.kind = .dryer)
    (hh : (computeRecord pr inputs t pl r).record.heat = some h) (htemp : pr.releaseTemp ≤ h.temp)
    (hsolvent : 0 < r.solvent) :
    (computeRecord pr inputs t pl r).released =
      ceilDiv (r.solvent * eEff pr t pl.entry) 256 := by
  rw [computeRecord_released, releasedOf_of_releases, heatRecord_solvent]
  rw [releases_iff, heatRecord_kind, heatRecord_solvent]
  exact ⟨hprinted, hdryer, hsolvent, h, hh, htemp⟩

theorem computeRecord_released_of_cold_or_dry
    (hh : (computeRecord pr inputs t pl r).record.heat = some h)
    (hcold : h.temp < pr.releaseTemp ∨ r.solvent = 0) :
    (computeRecord pr inputs t pl r).released = 0 := by
  rw [computeRecord_released]
  exact releasedOf_of_cold_or_dry t hh (by rwa [heatRecord_solvent])

end

/-! ### The two statements -/

/-- Settles O12: the bounds are those of one heating with `k_eff` at most 256; a gap that scales to less
than 256 truncates to no change. -/
theorem heatingRule : Obligations.HeatingRule := by
  intro pr inputs t pl r
  refine ⟨computeRecord_of_void pr inputs t pl r, fun hv h hh => ?_⟩
  obtain ⟨hlow, hhigh⟩ := heatOnce_between (kEff_le pr t pl.entry) (inputs.getD pl.zone 0) h.temp
  exact ⟨computeRecord_heat_of_heat hv hh, hlow, hhigh, le_max_right _ _, heatOnce_of_small_gap⟩

/-- Settles O13: case by case from what a heated record releases; the release sums are read off their
definition zone by zone. -/
theorem releaseRule : Obligations.ReleaseRule := by
  refine ⟨fun pr inputs t pl r => ?_, fun pr cs z => releaseSums_getElem? pr cs⟩
  refine ⟨computeRecord_zone pr inputs t pl r, computeRecord_solvent pr inputs t pl r,
    computeRecord_released_le pr inputs t pl r, fun hprinted hdryer h hh => ?_,
    computeRecord_released_of_not_printed_or_dryer pr inputs t pl r⟩
  refine ⟨fun htemp hsolvent => ?_, computeRecord_released_of_cold_or_dry hh⟩
  have hout := computeRecord_released_of_hot hprinted hdryer hh htemp hsolvent
  refine ⟨hout, fun he => ?_, fun he => ?_⟩
  · rw [hout]
    exact ceilDiv_256_pos (Nat.mul_pos hsolvent he)
  · rw [hout, eEff, he, Nat.mul_zero]
    rfl

end Sys2Proof.Machine
end

section
/-! PROOFS. The motion unit after a reset (R40), and pulses that come before a profile is
committed (R31). -/
namespace Sys2Proof.Machine

/-! ### What the commands run -/

theorem exec_reset (l : InputLines) (s : State) :
    exec (.reset l) s =
      .next { State.afterReset l with pending := s.pending, freeCount := s.freeCount } := rfl

theorem exec_forwardPulse (s : State) : exec .forwardPulse s = execForwardPulse s := rfl

theorem exec_reversePulse (s : State) : exec .reversePulse s = execReversePulse s := rfl

/-! ### The encoder reference (R30) -/

/-- Moving the encoder reference is a change of the motion unit alone; the frame of the other blocks is
that of `setMotion`. -/
theorem moveReference_eq (f : EncPair → EncPair) (s : State) :
    moveReference f s = s.setMotion { s.motion with encRef := f s.motion.encRef } := rfl

/-- Within the motion unit, no field but the reference itself moves. -/
theorem moveReference_motion_frame (f : EncPair → EncPair) (s : State) :
    (moveReference f s).motion =
      { s.motion with encRef := (moveReference f s).motion.encRef } := by
  simp only [moveReference_eq, setMotion_motion]

/-! ### Pulses with no profile committed (R31) -/

section
variable {s : State} (h : s.prof.committed = none)
include h

theorem exec_forwardPulse_of_uncommitted :
    exec .forwardPulse s = .next (moveReference encForward s) := by
  rw [exec_forwardPulse, execForwardPulse, h]

theorem exec_reversePulse_of_uncommitted :
    exec .reversePulse s = .next (moveReference encReverse s) := by
  rw [exec_reversePulse, execReversePulse, h]

end

/-! ### The two statements -/

/-- Settles O6: with no profile the branch of either pulse that counts and issues steps is not reached. -/
theorem uncommittedPulse : Obligations.UncommittedPulse := by
  intro s h
  rw [exec_forwardPulse_of_uncommitted h, exec_reversePulse_of_uncommitted h]
  exact ⟨congrArg _ (moveReference_eq encForward s), congrArg _ (moveReference_eq encReverse s)⟩

/-- Settles O4: a reset leaves no profile committed, so each pulse after it only moves the reference. -/
theorem resetMotionUnit : Obligations.ResetMotionUnit := by
  intro l s
  refine ⟨_, exec_reset l s, rfl, rfl, ?forward, ?reverse⟩
  case forward =>
    exact ⟨_, exec_forwardPulse_of_uncommitted rfl, moveReference_motion_frame encForward _⟩
  case reverse =>
    exact ⟨_, exec_reversePulse_of_uncommitted rfl, moveReference_motion_frame encReverse _⟩

end Sys2Proof.Machine
end

section
/-! PROOFS. The load unit at a step: the vapour loads (R46), peak and peak zone (R47), demand and base
duty (R52, R53), and the load conditions (R49), from the ring's publication to the end of the command. -/
namespace Sys2Proof.Machine

/-! ### The loads (R46) -/

/-- The bound of R46 in each of its three cases. -/
theorem vapourLoad_le (cLim t r fz : Nat) : vapourLoad cLim t r fz ≤ 4000 := by
  unfold vapourLoad
  split
  · exact Nat.zero_le _
  · split
    · exact Nat.le_refl _
    · exact Nat.min_le_left ..

theorem vapourLoad_of_no_release (cLim t fz : Nat) : vapourLoad cLim t 0 fz = 0 := rfl

theorem vapourLoad_of_no_flow (cLim t : Nat) {r : Nat} (hr : 0 < r) :
    vapourLoad cLim t r 0 = 4000 := by
  simp [vapourLoad, hr.ne']

theorem vapourLoad_of_flow (cLim t : Nat) {r fz : Nat} (hr : 0 < r) (hf : 0 < fz) :
    vapourLoad cLim t r fz =
      min 4000 ((r * 1000000000 + t * fz * cLim - 1) / (t * fz * cLim)) := by
  simp [vapourLoad, hr.ne', hf.ne', ceilDiv]

theorem vapourLoads_length {pr : Profile} {release : List Nat} (flow t : Nat)
    (h : release.length = pr.dryers.length) :
    (vapourLoads pr flow t release).length = pr.dryers.length := by
  simp [vapourLoads, h]

theorem vapourLoads_getElem? {pr : Profile} {release : List Nat} {z r : Nat} {e : ZoneItems}
    (flow t : Nat) (he : pr.dryers[z]? = some e) (hr : release[z]? = some r) :
    (vapourLoads pr flow t release)[z]? = some (vapourLoad pr.cLim t r (zoneFlow flow e)) := by
  simp [vapourLoads, List.getElem?_zipWith, he, hr]

theorem vapourLoads_le {pr : Profile} {flow t : Nat} {release : List Nat} :
    ∀ l ∈ vapourLoads pr flow t release, l ≤ 4000 := by
  intro l hl
  obtain ⟨z, hz⟩ := List.mem_iff_getElem?.mp hl
  obtain ⟨e, r, -, -, rfl⟩ := List.getElem?_zipWith_eq_some.mp hz
  exact vapourLoad_le ..

/-! ### Peak and peak zone (R47) -/

/-- The greatest load as the maximum of a list, with 0 for the part with no DRYER zone. -/
theorem max?_zero_cons (l : List Nat) : (0 :: l).max? = some (greatestLoad l) :=
  List.max?_cons'

theorem le_greatestLoad {l : List Nat} : ∀ x ∈ l, x ≤ greatestLoad l := by
  obtain ⟨-, hle⟩ := List.max?_eq_some_iff.mp (max?_zero_cons l)
  exact fun x hx => hle x (List.mem_cons_of_mem _ hx)

/-- A greatest load of 0 is the load of every zone; any other is one of the loads. -/
theorem greatestLoad_mem {l : List Nat} (h : l ≠ []) : greatestLoad l ∈ l := by
  obtain ⟨hmem, -⟩ := List.max?_eq_some_iff.mp (max?_zero_cons l)
  rcases List.mem_cons.mp hmem with hzero | hmem
  · obtain ⟨x, hx⟩ := List.exists_mem_of_ne_nil l h
    have hle := le_greatestLoad x hx
    obtain rfl : x = greatestLoad l := by omega
    exact hx
  · exact hmem

theorem firstAt_spec {peak : Nat} {l : List Nat} (h : peak ∈ l) :
    l[firstAt peak l]? = some peak ∧ ∀ z < firstAt peak l, l[z]? ≠ some peak := by
  have hsome : (l.findIdx? (fun x => x == peak)).isSome = true := by simpa using h
  obtain ⟨i, hi⟩ := Option.isSome_iff_exists.mp hsome
  obtain ⟨hlt, hat, hbefore⟩ := List.findIdx?_eq_some_iff_getElem.mp hi
  have hfirst : firstAt peak l = i := by simp [firstAt, hi]
  rw [hfirst]
  refine ⟨by simpa [hlt] using hat, fun z hz hpeak => hbefore z hz ?_⟩
  obtain ⟨_, hz'⟩ := List.getElem?_eq_some_iff.mp hpeak
  simpa using hz'

/-! ### The load unit after a publication -/

/-- The load unit holds what its own functions make of the ring's publication and of the flow it holds. -/
structure LoadsPublished (pr : Profile) (s : State) : Prop where
  loads : s.load.loads = vapourLoads pr s.load.flow s.ring.lastT s.ring.release
  peak : s.load.peak = greatestLoad s.load.loads
  peakZone : s.load.peakZone = firstAt s.load.peak s.load.loads
  fReq : s.load.fReq = exhaustDemand pr s.load.flow s.load.peak
  baseDuty : s.load.baseDuty = baseDutyOf pr s.load.fReq

namespace LoadsPublished

variable {pr : Profile} {s t : State}

theorem keeps (h : LoadsPublished pr s) (k : KeepsPlant s t) : LoadsPublished pr t := by
  obtain ⟨-, -, hring, hflow, hloads, hpeak, hzone, -, hreq, hbase, -⟩ := k
  constructor
  · rw [hloads, hflow, hring, h.loads]
  · rw [hloads, hpeak, h.peak]
  · rw [hloads, hpeak, hzone, h.peakZone]
  · rw [hreq, hflow, hpeak, h.fReq]
  · rw [hreq, hbase, h.baseDuty]

theorem loadsAgree (h : LoadsPublished pr s) : LoadsAgree pr s := by
  intro z e r he hr fz
  have hz : s.load.loads[z]? = some (vapourLoad pr.cLim s.ring.lastT r fz) := by
    rw [h.loads]
    exact vapourLoads_getElem? s.load.flow s.ring.lastT he hr
  rw [hz]
  refine ⟨fun hnone => ?_, fun hsome hstill => ?_, fun hsome hflow => ?_⟩
  · rw [hnone, vapourLoad_of_no_release]
  · rw [hstill, vapourLoad_of_no_flow _ _ hsome]
  · exact congrArg some (vapourLoad_of_flow _ _ hsome hflow)

theorem demandAgrees (h : LoadsPublished pr s) : DemandAgrees pr s := by
  refine ⟨?_, fun hzones => ?_, fun hnone => ?_, h.fReq, h.baseDuty⟩
  · rw [h.peak]
    exact le_greatestLoad
  · rw [h.peakZone]
    refine firstAt_spec ?_
    rw [h.peak]
    exact greatestLoad_mem hzones
  · rw [h.peakZone, h.peak, hnone]
    exact ⟨rfl, rfl⟩

theorem loads_length (h : LoadsPublished pr s) (hr : s.ring.release.length = pr.dryers.length) :
    s.load.loads.length = pr.dryers.length := by
  rw [h.loads]
  exact vapourLoads_length _ _ hr

theorem loads_le (h : LoadsPublished pr s) : ∀ l ∈ s.load.loads, l ≤ 4000 := by
  rw [h.loads]
  exact vapourLoads_le

end LoadsPublished

/-! ### One level kind (R177) -/

/-- Level kind `k` holds and is pending as it was: `KeepsLevels` for one kind, which an evaluation of
another kind of the plant keeps too. -/
def KeepsLevel (k : Notice) (s t : State) : Prop :=
  ∀ p, k.inSet (t.port p).holding = k.inSet (s.port p).holding ∧
    k.inSet (t.port p).pendingSet = k.inSet (s.port p).pendingSet

theorem KeepsLevels.keepsLevel {s t : State} (h : KeepsLevels s t) {k : Notice}
    (hk : k.ofPlant = true) : KeepsLevel k s t := fun p => h k p hk

theorem setConditionAll_keepsLevel {k j : Notice} (h : k ≠ j) (b : Bool) (s : State) :
    KeepsLevel k s (setConditionAll j b s) := by
  intro p
  simp [setConditionAll, h]

theorem KeepsLevel.trans {k : Notice} {s t u : State} (h : KeepsLevel k s t)
    (h' : KeepsLevel k t u) : KeepsLevel k s u :=
  fun p => ⟨(h' p).1.trans (h p).1, (h' p).2.trans (h p).2⟩

theorem LevelBecomes.of_keepsLevel {k : Notice} {b : Bool} {s t u : State} (h : KeepsLevel k s t)
    (hb : LevelBecomes k b t u) : LevelBecomes k b s u := by
  intro p
  obtain ⟨hhold, hpend⟩ := h p
  rw [← hhold, ← hpend]
  exact hb p

theorem LevelBecomes.keepsLevel {k : Notice} {b : Bool} {s t u : State}
    (hb : LevelBecomes k b s t) (h : KeepsLevel k t u) : LevelBecomes k b s u := by
  intro p
  obtain ⟨hhold, hpend⟩ := h p
  rw [hhold, hpend]
  exact hb p

/-! ### Up to the load unit -/

/-- What the blocks ahead of the load unit leave alone: the profile, the flow, LOAD_WARN and LOAD_TRIP. -/
structure AheadOfLoad (s t : State) : Prop where
  prof : t.prof = s.prof
  flow : t.load.flow = s.load.flow
  warn : KeepsLevel .loadWarn s t
  trip : KeepsLevel .loadTrip s t

namespace AheadOfLoad

variable {s t u : State}

theorem trans (h : AheadOfLoad s t) (k : AheadOfLoad t u) : AheadOfLoad s u :=
  ⟨k.prof.trans h.prof, k.flow.trans h.flow, h.warn.trans k.warn, h.trip.trans k.trip⟩

theorem of_evolves (h : Evolves s t) : AheadOfLoad s t := by
  obtain ⟨-, -, -, hflow, -, -, -, -, -, -, -, -, hprof, -⟩ := h.keeps
  exact ⟨hprof, hflow, h.levels.keepsLevel rfl, h.levels.keepsLevel rfl⟩

theorem setMotion (s : State) (m : Motion) : AheadOfLoad s (s.setMotion m) :=
  ⟨rfl, rfl, fun _ => ⟨rfl, rfl⟩, fun _ => ⟨rfl, rfl⟩⟩

theorem setRing (s : State) (r : Ring) : AheadOfLoad s (s.setRing r) :=
  ⟨rfl, rfl, fun _ => ⟨rfl, rfl⟩, fun _ => ⟨rfl, rfl⟩⟩

theorem setLine (s : State) (l : PhaseUnit) : AheadOfLoad s (s.setLine l) :=
  ⟨rfl, rfl, fun _ => ⟨rfl, rfl⟩, fun _ => ⟨rfl, rfl⟩⟩

/-- STALL is a kind of its own. -/
theorem evalStall (s : State) : AheadOfLoad s (evalStall s) :=
  ⟨rfl, rfl, setConditionAll_keepsLevel (by decide) _ s, setConditionAll_keepsLevel (by decide) _ s⟩

theorem pulseMotion (pr : Profile) (s : State) : AheadOfLoad s (pulseMotion pr s) := by
  unfold Machine.pulseMotion
  split
  · exact setMotion s _
  · dsimp only
    refine .trans ?_ (of_evolves (.trans (.recompute _) (arbiterPass_evolves _)))
    exact .trans (.trans (setMotion s _) (setLine _ _)) (evalStall _)

theorem ringAdvance (pr : Profile) (t : Nat) (s : State) : AheadOfLoad s (ringAdvance pr t s) := by
  unfold Machine.ringAdvance
  dsimp only
  refine .trans ?_ (setRing _ _)
  split
  · exact of_evolves (handOff_evolves _ _ _)
  · exact of_evolves (.refl s)

end AheadOfLoad

/-! ### From the load unit on -/

/-- The load unit at the end of `u` has taken a step's publication, and its two conditions became, since
`s`, what the peak asks for. -/
structure StepPublished (pr : Profile) (s u : State) : Prop where
  release : u.ring.release.length = pr.dryers.length
  published : LoadsPublished pr u
  flow : u.load.flow = s.load.flow
  warn : LevelBecomes .loadWarn (decide (pr.loadWarn ≤ u.load.peak)) s u
  trip : LevelBecomes .loadTrip (decide (pr.loadTrip ≤ u.load.peak)) s u

namespace StepPublished

variable {pr : Profile} {s t u : State}

theorem of_ahead (k : AheadOfLoad s t) (h : StepPublished pr t u) : StepPublished pr s u :=
  ⟨h.release, h.published, h.flow.trans k.flow, h.warn.of_keepsLevel k.warn,
    h.trip.of_keepsLevel k.trip⟩

theorem after (h : StepPublished pr s t) (e : Evolves t u) : StepPublished pr s u := by
  obtain ⟨-, -, hring, hflow, -, hpeak, -⟩ := e.keeps
  refine ⟨?_, h.published.keeps e.keeps, hflow.trans h.flow, ?_, ?_⟩
  · rw [hring]
    exact h.release
  · rw [hpeak]
    exact h.warn.keepsLevel (e.levels.keepsLevel rfl)
  · rw [hpeak]
    exact h.trip.keepsLevel (e.levels.keepsLevel rfl)

end StepPublished

/-- The load unit with a step's loads, before its conditions are evaluated (R46, R47, R50, R52, R53). -/
def loadTaken (pr : Profile) (s : State) : State :=
  let l := loadsOf pr s.ring s.load.flow s.load
  s.setLoad { l with tripCount := tripCountAfter pr l }

theorem loadTaken_published (pr : Profile) (s : State) : LoadsPublished pr (loadTaken pr s) :=
  ⟨rfl, rfl, rfl, rfl, rfl⟩

theorem loadTaken_ahead (pr : Profile) (s : State) : AheadOfLoad s (loadTaken pr s) :=
  ⟨rfl, rfl, fun _ => ⟨rfl, rfl⟩, fun _ => ⟨rfl, rfl⟩⟩

theorem evalLoadConditions_of_committed {pr : Profile} {s : State}
    (h : s.prof.committed = some pr) :
    evalLoadConditions s =
      setConditionAll .loadTrip (decide (pr.loadTrip ≤ s.load.peak))
        (setConditionAll .loadWarn (decide (pr.loadWarn ≤ s.load.peak)) s) := by
  rw [evalLoadConditions, h]

theorem evalLoadConditions_keeps (s : State) : KeepsPlant s (evalLoadConditions s) := by
  unfold evalLoadConditions
  split <;> simp [KeepsPlant]

/-- After the conditions and the floor duty comes at most a load trip. -/
theorem loadStep_evolves (pr : Profile) (s : State) :
    Evolves (evalLoadConditions (loadTaken pr s)) (loadStep pr s) := by
  have hduty : Evolves (evalLoadConditions (loadTaken pr s))
      (setFloorDuty (evalLoadConditions (loadTaken pr s))) := .duty _
  unfold loadStep
  dsimp only
  split
  · exact .trans hduty (.trans (.append _ _) (enterSafe_evolves _ _))
  · exact hduty

section
variable {pr : Profile} {s : State} (hp : s.prof.committed = some pr)
include hp

/-- LOAD_WARN is evaluated first and LOAD_TRIP second; neither evaluation touches the other kind. -/
theorem evalLoadConditions_stepPublished (hr : s.ring.release.length = pr.dryers.length)
    (h : LoadsPublished pr s) : StepPublished pr s (evalLoadConditions s) := by
  obtain ⟨-, -, hring, hflow, -, hpeak, -⟩ := evalLoadConditions_keeps s
  refine ⟨?_, h.keeps (evalLoadConditions_keeps s), hflow, ?_, ?_⟩
  · rw [hring]
    exact hr
  · rw [hpeak, evalLoadConditions_of_committed hp]
    exact (setConditionAll_becomes .loadWarn _ s).keepsLevel
      (setConditionAll_keepsLevel (by decide) _ _)
  · rw [hpeak, evalLoadConditions_of_committed hp]
    exact .of_keepsLevel (setConditionAll_keepsLevel (by decide) _ _)
      (setConditionAll_becomes .loadTrip _ _)

theorem loadStep_stepPublished (hr : s.ring.release.length = pr.dryers.length) :
    StepPublished pr s (loadStep pr s) := by
  have htaken : StepPublished pr (loadTaken pr s) (evalLoadConditions (loadTaken pr s)) :=
    evalLoadConditions_stepPublished hp hr (loadTaken_published pr s)
  exact .of_ahead (loadTaken_ahead pr s) (htaken.after (loadStep_evolves pr s))

/-! ### The two steps -/

theorem issueDwell_stepPublished : StepPublished pr s (issueDwell pr s) := by
  refine .of_ahead (.trans (.setMotion s _) (.setRing _ _)) (.after (loadStep_stepPublished ?_ ?_)
    (.trans (.recompute _) (arbiterPass_evolves _)))
  · exact hp
  · simp [dwellRing, releaseSums]

theorem afterAdvance_stepPublished (hr : s.ring.release.length = pr.dryers.length) :
    StepPublished pr s (afterAdvance pr s) := by
  have hpassed := (((loadStep_stepPublished hp hr).after (.idle false _)).after
    (.recompute _)).after (arbiterPass_evolves _)
  exact ((hpassed.after (phaseAdvance_evolves _ _ _)).after (arbiterPass_evolves _)).after
    (settleObserve_evolves _ _)

theorem issueAdvance_stepPublished : StepPublished pr s (issueAdvance pr s) := by
  have hahead := AheadOfLoad.ringAdvance pr (stepTime pr s.motion)
    (s.setMotion
      { s.motion with
        p := 0
        tStep := stepTime pr s.motion
        vMeas := measuredSpeed pr (stepTime pr s.motion)
        last := some { instant := s.time.us, elapsed := 0 } })
  refine .of_ahead (.trans (.setMotion s _) hahead) (afterAdvance_stepPublished ?_ ?_)
  · rw [hahead.prof]
    exact hp
  · simp [ringAdvance, advanceRing, releaseSums]

end

/-! ### The commands that take a step -/

/-- Making the web MOVING moves no count of the motion unit. -/
theorem pulseMotion_counts (pr : Profile) (s : State) :
    (pulseMotion pr s).motion.p = s.motion.p ∧ (pulseMotion pr s).motion.d = s.motion.d := by
  unfold pulseMotion
  split
  · exact ⟨rfl, rfl⟩
  · simp [evalStall]

theorem forward_of_complete {pr : Profile} {s : State} (hd : s.motion.d = 0)
    (hp : pr.pulsesPerSeg ≤ s.motion.p + 1) :
    forward pr s = issueAdvance pr (pulseMotion pr s) := by
  obtain ⟨hcount, hdebt⟩ := pulseMotion_counts pr s
  simp [forward, hcount, hdebt, hd, hp]

theorem forward_stepPublished {pr : Profile} {s : State} (h : s.prof.committed = some pr)
    (hd : s.motion.d = 0) (hp : pr.pulsesPerSeg ≤ s.motion.p + 1) :
    StepPublished pr s (forward pr s) := by
  have hahead := AheadOfLoad.pulseMotion pr s
  rw [forward_of_complete hd hp]
  refine .of_ahead hahead (issueAdvance_stepPublished ?_)
  rw [hahead.prof]
  exact h

theorem exec_forwardPulse_of_committed {pr : Profile} {s : State} (h : s.prof.committed = some pr) :
    exec .forwardPulse s = .next (forward pr (moveReference encForward s)) := by
  rw [exec_forwardPulse, execForwardPulse, h]

theorem exec_dwellTimerExpiry (s : State) : exec .dwellTimerExpiry s = execDwellTimerExpiry s := rfl

theorem exec_dwellTimerExpiry_of_running {pr : Profile} {s : State}
    (h : s.prof.committed = some pr) (ht : s.motion.dwellTimer.isSome) :
    exec .dwellTimerExpiry s = .next (issueDwell pr s) := by
  obtain ⟨x, hx⟩ := Option.isSome_iff_exists.mp ht
  rw [exec_dwellTimerExpiry, execDwellTimerExpiry, hx, h]

theorem takesStep_stepPublished {pr : Profile} {c : Instr} {s : State}
    (h : s.prof.committed = some pr) (hc : TakesStep pr c s) :
    ∃ u, exec c s = .next u ∧ StepPublished pr s u := by
  obtain ⟨rfl, hd, hp⟩ | ⟨rfl, ht⟩ := hc
  · have hahead : AheadOfLoad s (moveReference encForward s) := .setMotion s _
    exact ⟨_, exec_forwardPulse_of_committed h, .of_ahead hahead (forward_stepPublished h hd hp)⟩
  · exact ⟨_, exec_dwellTimerExpiry_of_running h ht, issueDwell_stepPublished h⟩

/-- Settles O16: the load unit takes the publication of either step, and nothing after it in the command
touches the loads or the two conditions. -/
theorem stepLoads : Obligations.StepLoads := by
  intro pr c s h hc
  obtain ⟨u, hu, hstep⟩ := takesStep_stepPublished h hc
  exact ⟨u, hu, hstep.release, hstep.published.loads_length hstep.release,
    hstep.published.loadsAgree, hstep.published.loads_le, hstep.published.demandAgrees, hstep.flow,
    hstep.warn, hstep.trip⟩

end Sys2Proof.Machine
end

section
/-! PROOFS. The envelope unit at a recomputation: the chill trial (R62), the chill entry temperature
T_in (R63), the CHILL component as the outcome of a search from SPEED_MAX down (R68), the heat caps
(R73). -/
namespace Sys2Proof.Machine

/-! ### The chill trial (R62) -/

@[simp] theorem heatTimes_zero (k : Nat) (a x : Int) : heatTimes k a 0 x = x := rfl

theorem heatTimes_succ (k : Nat) (a : Int) (n : Nat) (x : Int) :
    heatTimes k a (n + 1) x = heatTimes k a n (heatOnce k a x) := rfl

@[simp] theorem chillTrial_nil (pr : Profile) (t : Nat) (x : Int) : chillTrial pr [] t x = x := rfl

theorem chillTrial_cons (pr : Profile) (r : Roll) (rolls : List Roll) (t : Nat) (x : Int) :
    chillTrial pr (r :: rolls) t x =
      chillTrial pr rolls t (heatTimes (kEff pr t r.entry) r.temp r.entry.span x) := rfl

/-- The scaled coefficient does not depend on the span, so a zone one position longer is one
application of R13 followed by the zone as it was. -/
theorem chillTrial_cons_span_succ (pr : Profile) (e : ZoneItems) (n : Nat) (a x : Int)
    (rolls : List Roll) (t : Nat) :
    chillTrial pr ({ entry := { e with span := n + 1 }, temp := a } :: rolls) t x =
      chillTrial pr ({ entry := { e with span := n }, temp := a } :: rolls) t
        (heatOnce (kEff pr t e) a x) := by
  simp only [chillTrial_cons, heatTimes_succ, kEff]

theorem rollsOf_length (pr : Profile) (inputs : List Int) :
    (rollsOf pr inputs).length = min pr.chills.length (inputs.length - pr.dryers.length) := by
  simp [rollsOf]

theorem rollsOf_getElem? {pr : Profile} {inputs : List Int} {c : Nat} {e : ZoneItems} {a : Int}
    (he : pr.chills[c]? = some e) (ha : inputs[pr.dryers.length + c]? = some a) :
    (rollsOf pr inputs)[c]? = some { entry := e, temp := a } := by
  simp [rollsOf, List.getElem?_zipWith, he, ha]

theorem chillTrialRule (pr : Profile) : ChillTrialRule pr := by
  refine ⟨chillTrial_nil pr, fun r rolls t x hspan => ?_, chillTrial_cons_span_succ pr,
    fun inputs => ⟨rollsOf_length pr inputs, fun c e a => rollsOf_getElem?⟩⟩
  rw [chillTrial_cons, hspan, heatTimes_zero]

theorem trialPasses_iff (pr : Profile) (rolls : List Roll) (t : Nat) (tIn : Option Int) :
    trialPasses pr rolls t tIn = true ↔
      ∀ x, tIn = some x → chillTrial pr rolls t x ≤ pr.setLimit := by
  cases tIn <;> simp [trialPasses]

/-! ### The chill entry temperature (R63) -/

theorem greatestTemp_eq_max? (l : List Int) : greatestTemp l = l.max? := by
  induction l with
  | nil => rfl
  | cons x rest ih =>
    rw [greatestTemp, ih, List.max?_cons]
    cases rest.max? <;> rfl

theorem temp?_eq_some_iff {r : SegRecord} {t : Int} :
    r.temp? = some t ↔ r.kind ≠ .void ∧ ∃ h, r.heat = some h ∧ h.temp = t := by
  simp [SegRecord.temp?]

/-- A PRINTED or BLANK record with temperature `t` stands at position `q` of the last DRYER zone. -/
def StandsInLastDryer (pr : Profile) (records : List SegRecord) (q : Nat) (t : Int) : Prop :=
  pr.zoneStart (pr.dryers.length - 1) ≤ q ∧ q < pr.dryerLength ∧
    ∃ r h, records[q]? = some r ∧ r.kind ≠ .void ∧ r.heat = some h ∧ h.temp = t

/-- The members of a segment of a list are what stands at its positions. -/
theorem mem_drop_take_iff {α : Type} {l : List α} {m n : Nat} {x : α} :
    x ∈ (l.take n).drop m ↔ ∃ q, m ≤ q ∧ q < n ∧ l[q]? = some x := by
  simp only [List.mem_iff_getElem?, List.getElem?_drop, List.getElem?_take,
    Option.ite_none_right_eq_some]
  constructor
  · rintro ⟨i, hi, hx⟩
    exact ⟨m + i, by omega, hi, hx⟩
  · rintro ⟨q, hm, hn, hx⟩
    obtain ⟨i, rfl⟩ := Nat.exists_eq_add_of_le hm
    exact ⟨i, hn, hx⟩

theorem mem_lastDryerTemps_iff {pr : Profile} {records : List SegRecord} {t : Int} :
    t ∈ ((records.take pr.dryerLength).drop
        (pr.zoneStart (pr.dryers.length - 1))).filterMap SegRecord.temp? ↔
      ∃ q, StandsInLastDryer pr records q t := by
  simp only [List.mem_filterMap, mem_drop_take_iff, temp?_eq_some_iff, StandsInLastDryer]
  constructor
  · rintro ⟨r, ⟨q, hfirst, hlast, hr⟩, hkind, h, hheat, ht⟩
    exact ⟨q, hfirst, hlast, r, h, hr, hkind, hheat, ht⟩
  · rintro ⟨q, hfirst, hlast, r, h, hr, hkind, hheat, ht⟩
    exact ⟨r, ⟨q, hfirst, hlast, hr⟩, hkind, h, hheat, ht⟩

theorem chillEntry_eq_some_iff {pr : Profile} {records : List SegRecord} {x : Int} :
    chillEntry pr records = some x ↔
      (∃ q, StandsInLastDryer pr records q x) ∧
        ∀ q t, StandsInLastDryer pr records q t → t ≤ x := by
  simp only [chillEntry, greatestTemp_eq_max?, List.max?_eq_some_iff, mem_lastDryerTemps_iff,
    forall_exists_index]
  exact and_congr_right fun _ => forall_comm

theorem chillEntry_eq_none_iff {pr : Profile} {records : List SegRecord} :
    chillEntry pr records = none ↔ ∀ q t, ¬StandsInLastDryer pr records q t := by
  simp only [chillEntry, greatestTemp_eq_max?, List.max?_eq_none_iff,
    List.eq_nil_iff_forall_not_mem, mem_lastDryerTemps_iff, not_exists]
  exact forall_comm

/-! ### The CHILL component (R68) -/

/-- The search goes down from `lo + n`, so it ends at the first speed that passes. -/
theorem greatestFrom_eq_some {pass : Nat → Bool} {lo n v : Nat}
    (h : greatestFrom pass lo n = some v) :
    lo ≤ v ∧ v ≤ lo + n ∧ pass v = true ∧ ∀ w, v < w → w ≤ lo + n → pass w = false := by
  induction n with
  | zero =>
    obtain ⟨hpass, rfl⟩ : pass lo = true ∧ lo = v := by simpa [greatestFrom] using h
    exact ⟨le_rfl, le_rfl, hpass, fun w hlt hle => by omega⟩
  | succ n ih =>
    rw [greatestFrom] at h
    split at h
    next hpass =>
      obtain rfl := Option.some.inj h
      exact ⟨by omega, le_rfl, hpass, fun w hlt hle => by omega⟩
    next hfail =>
      obtain ⟨hlo, hhi, hpass, habove⟩ := ih h
      refine ⟨hlo, by omega, hpass, fun w hlt hle => ?_⟩
      obtain rfl | hw : w = lo + (n + 1) ∨ w ≤ lo + n := by omega
      · simpa using hfail
      · exact habove w hlt hw

theorem greatestFrom_eq_none {pass : Nat → Bool} {lo n : Nat} (h : greatestFrom pass lo n = none) :
    ∀ w, lo ≤ w → w ≤ lo + n → pass w = false := by
  induction n with
  | zero =>
    intro w hlo hhi
    obtain rfl : w = lo := by omega
    simpa [greatestFrom] using h
  | succ n ih =>
    rw [greatestFrom] at h
    split at h
    next => contradiction
    next hfail =>
      intro w hlo hhi
      obtain rfl | hw : w = lo + (n + 1) ∨ w ≤ lo + n := by omega
      · simpa using hfail
      · exact ih h w hlo hw

/-- The chill trial from `tIn` passes at speed `v`; with `tIn` absent it passes at every speed
(R63, R68). -/
def TrialPassesAt (pr : Profile) (inputs : List Int) (tIn : Option Int) (v : Nat) : Prop :=
  ∀ x, tIn = some x →
    chillTrial pr (rollsOf pr inputs) (pr.segLength * 600000 / v) x ≤ pr.setLimit

theorem trialPassesAt_of_absent (pr : Profile) (inputs : List Int) (v : Nat) :
    TrialPassesAt pr inputs none v := by
  simp [TrialPassesAt]

/-- The search of R68, as the component reads it. -/
def chillSearch (pr : Profile) (inputs : List Int) (tIn : Option Int) : Option Nat :=
  greatestFrom (fun v => trialPasses pr (rollsOf pr inputs) (stepTimeAt pr v) tIn)
    pr.crawlLimit (pr.speedMax - pr.crawlLimit)

section
variable {pr : Profile} {inputs : List Int} {tIn : Option Int} {v : Nat}

theorem trialPassesAt_iff :
    trialPasses pr (rollsOf pr inputs) (stepTimeAt pr v) tIn = true ↔
      TrialPassesAt pr inputs tIn v :=
  trialPasses_iff ..

theorem not_trialPassesAt_iff :
    trialPasses pr (rollsOf pr inputs) (stepTimeAt pr v) tIn = false ↔
      ¬TrialPassesAt pr inputs tIn v := by
  rw [← trialPassesAt_iff, Bool.not_eq_true]

theorem chillComponent_eq_chillSearch (hcrawl : 1 ≤ pr.crawlLimit) :
    chillComponent pr inputs tIn = (chillSearch pr inputs tIn).getD pr.crawlLimit := by
  rw [chillComponent, max_eq_right hcrawl, chillSearch]

/-- The two outcomes of R68: the greatest speed `v` of the range that passes, or CRAWL_LIMIT
where none does. -/
theorem chillComponent_cases (hv : chillComponent pr inputs tIn = v)
    (hcrawl : 1 ≤ pr.crawlLimit) (hmax : pr.crawlLimit ≤ pr.speedMax) :
    (pr.crawlLimit ≤ v ∧ v ≤ pr.speedMax ∧ TrialPassesAt pr inputs tIn v ∧
      ∀ w, v < w → w ≤ pr.speedMax → ¬TrialPassesAt pr inputs tIn w) ∨
    (v = pr.crawlLimit ∧
      ∀ w, pr.crawlLimit ≤ w → w ≤ pr.speedMax → ¬TrialPassesAt pr inputs tIn w) := by
  have htop : pr.crawlLimit + (pr.speedMax - pr.crawlLimit) = pr.speedMax := by omega
  rw [chillComponent_eq_chillSearch hcrawl] at hv
  cases hsearch : chillSearch pr inputs tIn with
  | some u =>
    obtain rfl : u = v := by simpa [hsearch] using hv
    obtain ⟨hlo, hhi, hpass, habove⟩ := greatestFrom_eq_some hsearch
    rw [htop] at hhi habove
    exact .inl ⟨hlo, hhi, trialPassesAt_iff.mp hpass,
      fun w hlt hle => not_trialPassesAt_iff.mp (habove w hlt hle)⟩
  | none =>
    have hnone := greatestFrom_eq_none hsearch
    rw [htop] at hnone
    exact .inr ⟨by simpa [hsearch] using hv.symm,
      fun w hlo hhi => not_trialPassesAt_iff.mp (hnone w hlo hhi)⟩

theorem chillComponent_bounds (hv : chillComponent pr inputs tIn = v)
    (hcrawl : 1 ≤ pr.crawlLimit) (hmax : pr.crawlLimit ≤ pr.speedMax) :
    pr.crawlLimit ≤ v ∧ v ≤ pr.speedMax := by
  obtain ⟨hlo, hhi, -, -⟩ | ⟨rfl, -⟩ := chillComponent_cases hv hcrawl hmax
  · exact ⟨hlo, hhi⟩
  · exact ⟨le_rfl, hmax⟩

theorem chillComponent_greatest (hv : chillComponent pr inputs tIn = v)
    (hcrawl : 1 ≤ pr.crawlLimit) (hmax : pr.crawlLimit ≤ pr.speedMax)
    (h : ∃ w, pr.crawlLimit ≤ w ∧ w ≤ pr.speedMax ∧ TrialPassesAt pr inputs tIn w) :
    TrialPassesAt pr inputs tIn v ∧
      ∀ w, v < w → w ≤ pr.speedMax → ¬TrialPassesAt pr inputs tIn w := by
  obtain ⟨-, -, hgreatest⟩ | ⟨-, hfail⟩ := chillComponent_cases hv hcrawl hmax
  · exact hgreatest
  · obtain ⟨w, hlo, hhi, hpass⟩ := h
    exact absurd hpass (hfail w hlo hhi)

theorem chillComponent_of_none_passes (hcrawl : 1 ≤ pr.crawlLimit)
    (hmax : pr.crawlLimit ≤ pr.speedMax)
    (h : ∀ w, pr.crawlLimit ≤ w → w ≤ pr.speedMax → ¬TrialPassesAt pr inputs tIn w) :
    chillComponent pr inputs tIn = pr.crawlLimit := by
  obtain ⟨hlo, hhi, hpass, -⟩ | ⟨heq, -⟩ := chillComponent_cases rfl hcrawl hmax
  · exact absurd hpass (h _ hlo hhi)
  · exact heq

/-- No speed above the component passes, and with T_in absent SPEED_MAX does. -/
theorem chillComponent_of_absent (hcrawl : 1 ≤ pr.crawlLimit) (hmax : pr.crawlLimit ≤ pr.speedMax) :
    chillComponent pr inputs none = pr.speedMax := by
  have hpass := trialPassesAt_of_absent pr inputs pr.speedMax
  obtain ⟨-, habove⟩ := chillComponent_greatest rfl hcrawl hmax ⟨_, hmax, le_rfl, hpass⟩
  obtain ⟨-, hhi⟩ := chillComponent_bounds rfl hcrawl hmax
  exact hhi.antisymm (not_lt.mp fun hlt => habove _ hlt le_rfl hpass)

end

/-! ### The heat caps (R73) -/

theorem heated_iff (ph : Phase) :
    ph.heated = true ↔ ph = .heating ∨ ph = .ready ∨ ph = .printing ∨ ph = .draining := by
  cases ph <;> decide

theorem heatCap_eq (pr : Profile) (ph : Phase) (idle : Bool) (e : ZoneItems) :
    heatCap pr ph idle e =
      if ph = .heating ∨ ph = .ready ∨ ph = .printing ∨ ph = .draining then
        (if idle then min e.setMax pr.idleTemp else e.setMax)
      else 0 := by
  simp only [heatCap, heated_iff]

/-! ### The envelope at a recomputation (R70) -/

theorem recompute_heatCaps_of_uncommitted {s : State} (h : s.prof.committed = none) :
    (recompute s).env.heatCaps = [] := by
  simp [envelopeOf, h, emptyEnvelope]

section
variable {pr : Profile} {s : State} (h : s.prof.committed = some pr)
include h

theorem recompute_tIn : (recompute s).env.tIn = chillEntry pr s.ring.records := by
  simp [envelopeOf, h]

theorem recompute_chill :
    (recompute s).env.comps.chill =
      some (chillComponent pr s.ring.inputs (chillEntry pr s.ring.records)) := by
  simp [envelopeOf, h, components]

theorem recompute_heatCaps :
    (recompute s).env.heatCaps = pr.dryers.map (heatCap pr s.line.phase s.env.idle) := by
  simp [envelopeOf, h]

end

/-! ### The two statements -/

/-- Settles O22: T_in is the greatest of the temperatures that stand in the last DRYER zone, and the
component ends the search from SPEED_MAX down at the first speed the trial from T_in passes. -/
theorem chillComponentIsGreatest : Obligations.ChillComponentIsGreatest := by
  intro pr s h
  dsimp only
  rw [recompute_tIn h, recompute_chill h]
  refine ⟨chillTrialRule pr, fun x => chillEntry_eq_some_iff.mp, chillEntry_eq_none_iff.mp,
    fun hcrawl hmax => ⟨_, rfl, ?_⟩⟩
  obtain ⟨hlo, hhi⟩ := chillComponent_bounds rfl hcrawl hmax
  refine ⟨hlo, hhi, fun habsent => ?_, chillComponent_greatest rfl hcrawl hmax,
    chillComponent_of_none_passes hcrawl hmax⟩
  rw [habsent]
  exact chillComponent_of_absent hcrawl hmax

/-- Settles O23: zone by zone, the cap of R73 in the four heated phases and 0 in the others. -/
theorem heatCapTable : Obligations.HeatCapTable := by
  intro s
  refine ⟨recompute_heatCaps_of_uncommitted, fun pr h z => ?_⟩
  rw [recompute_heatCaps h, List.getElem?_map]
  exact Option.map_congr fun e _ => heatCap_eq pr s.line.phase s.env.idle e

end Sys2Proof.Machine
end

section
/-! PROOFS. The invariants that look at one block and its phase: the reset meets every invariant; a step
keeps the lines, the floor duty and the counts as the phase says (R54, R58, R81 to R83, R116), and the NOTE
lines as the pending sets say (R180). -/
namespace Sys2Proof.Machine

/-! ### After a reset -/

theorem afterReset_port (l : InputLines) (p : Port) : (State.afterReset l).port p = .reset := by
  cases p <;> rfl

/-- Settles O31: every block of the reset state is a literal, so each invariant is read off it. -/
theorem resetMeetsInvariants : Obligations.ResetMeetsInvariants := by
  intro l
  refine ⟨⟨rfl, rfl⟩, fun _ => rfl, ?counts, rfl, rfl, ?log, Nat.zero_le _, ?notes, ⟨rfl, trivial⟩,
    ?records, rfl, fun pr h => absurd h (by simp [State.afterReset])⟩
  case counts => simp [CountsFollowPhase, State.afterReset]
  case log => exact ⟨Nat.zero_le _, fun p => by cases p <;> exact Nat.le_refl _⟩
  case notes =>
    intro p _
    rw [afterReset_port]
    decide
  case records => intro r hr; exact absurd hr (by simp [State.afterReset])

/-- The invariants do not look at the queue or the model's counter. -/
theorem prepared_fields {s u : State} (h : Prepared s u) :
    u.ring = s.ring ∧ u.load = s.load ∧ u.env = s.env ∧ u.line = s.line ∧ u.brk = s.brk ∧
      u.arb = s.arb ∧ u.log = s.log ∧ u.prof = s.prof ∧ u.ports = s.ports ∧ u.motion = s.motion ∧
      u.time = s.time ∧ u.pwm = s.pwm := by
  cases h <;> exact ⟨rfl, rfl, rfl, rfl, rfl, rfl, rfl, rfl, rfl, rfl, rfl, rfl⟩

/-! ### What looks at the phase unit, p_b and the floor duty alone -/

/-- A property of the phase unit, p_b and the floor duty that every change of `Works` to these three
keeps. -/
structure ControlInvariant (P : State → Prop) : Prop where
  congr : ∀ {s t : State}, t.line = s.line → t.brk.pb = s.brk.pb →
    t.load.floorDuty = s.load.floorDuty → P s → P t
  duty : ∀ s, P s → P (setFloorDuty s)
  records : ∀ s l, SameControl s.line l → P s → P (s.setLine l)
  phase : ∀ p c s, p ≠ .webBreak → s.line.phase ≠ p → P s → P (phaseWrite p c s)
  detectors : ∀ s b, b.pb = none → s.line.phase ≠ .webBreak → P s → P (s.setBrk b)
  print : ∀ s l, s.line.phase = .ready → l.phase = s.line.phase → l.drain = s.line.drain → P s →
    P (phaseWrite .printing .impressionOn (s.setLine l))
  breakIn : ∀ s n, s.line.phase.heated = true → P s →
    P (phaseWrite .webBreak .webBreak (s.setBrk { s.brk with pb := some n }))
  breakMove : ∀ s n, s.line.phase = .webBreak → P s → P (s.setBrk { s.brk with pb := some n })
  breakOut : ∀ s t, s.line.phase = .webBreak → t.line = s.line → P s →
    P (phaseWrite .purge .breakClear t)
  tick : ∀ s, P s → P (tick s)
  reset : ∀ l, P (State.afterReset l)

namespace ControlInvariant

variable {P : State → Prop} (h : ControlInvariant P)
include h

theorem phaseWrite {p : Phase} (c : Cause) {s : State} (hp : p ≠ .webBreak) (hs : P s) :
    P (phaseWrite p c s) := by
  by_cases hsame : s.line.phase = p
  · rwa [phaseWrite_same hsame]
  · exact h.phase p c s hp hsame hs

theorem evolves {s t : State} (e : Evolves s t) : P s → P t := by
  induction e with
  | refl s => exact id
  | trans _ _ h k => exact k ∘ h
  | raiseAt => exact h.congr rfl rfl rfl
  | raiseAll => exact h.congr rfl rfl rfl
  | raiseOthers => exact h.congr rfl rfl rfl
  | watermarks => exact h.congr rfl rfl rfl
  | append => exact h.congr (by simp) (by simp) (by simp)
  | recompute => exact h.congr (by simp) (by simp) (by simp)
  | idle => exact h.congr rfl rfl rfl
  | duty s => exact h.duty s
  | arbiter => exact h.congr rfl rfl rfl
  | records s l hl => exact h.records s l hl
  | phase p c s hp => exact h.phaseWrite c hp

theorem works {s t : State} (w : Works s t) : P s → P t := by
  induction w with
  | refl s => exact id
  | trans _ _ h k => exact k ∘ h
  | evolves e => exact h.evolves e
  | motion => exact h.congr rfl rfl rfl
  | ring => exact h.congr rfl rfl rfl
  | load _ _ hl => exact h.congr rfl rfl hl
  | pwm => exact h.congr rfl rfl rfl
  | prof => exact h.congr rfl rfl rfl
  | detectors s b hb =>
    rcases hb with hb | ⟨hb, hn⟩
    · exact h.congr rfl hb rfl
    · exact h.detectors s b hb hn
  | estop s b => exact h.records s _ (.of_eq rfl rfl rfl rfl rfl rfl rfl rfl)
  | port => exact h.congr rfl rfl rfl
  | ports => exact h.congr rfl rfl rfl
  | log => exact h.congr rfl rfl rfl
  | print s l hr hl hd => exact h.print s l hr hl hd
  | breakIn s n hn => exact h.breakIn s n hn
  | breakMove s n hn => exact h.breakMove s n hn
  | breakOut hb hl => exact h.breakOut _ _ hb hl

theorem step {s t : State} (hstep : step s = .next t) : P s → P t := by
  refine step_keeps (fun l u => ?_) (fun _ _ => h.works) (fun s u hu => ?_) h.tick hstep
  · exact h.congr (s := State.afterReset l) rfl rfl rfl (h.reset l)
  · obtain ⟨-, hload, -, hline, hbrk, -⟩ := prepared_fields hu
    exact h.congr hline (by rw [hbrk]) (by rw [hload])

end ControlInvariant

/-! ### HEAT_INHIBIT and PERMIT (R82, R83) -/

/-- A phase change writes both lines for the phase it leads to. -/
theorem phaseWrite_linesFollow {p : Phase} {c : Cause} {s : State} (h : s.line.phase ≠ p) :
    LinesFollowPhase (phaseWrite p c s) := by
  simp [LinesFollowPhase, phaseWrite_line h, lineOnChange]

theorem linesFollowPhase_invariant : ControlInvariant LinesFollowPhase where
  congr hl _ _ hs := by simpa [LinesFollowPhase, hl] using hs
  duty _ hs := hs
  records s l hl hs := by
    obtain ⟨hphase, hinhibit, hpermit, -⟩ := hl
    simpa [LinesFollowPhase, hphase, hinhibit, hpermit] using hs
  phase _ _ _ _ hne _ := phaseWrite_linesFollow hne
  detectors _ _ _ _ hs := hs
  print s l hr hl _ _ := phaseWrite_linesFollow (by simp [hl, hr])
  breakIn s n hn _ := phaseWrite_linesFollow (by intro h; simp_all [Phase.heated])
  breakMove _ _ _ hs := hs
  breakOut s t hb hl _ := phaseWrite_linesFollow (by simp [hl, hb])
  tick _ hs := hs
  reset l := (resetMeetsInvariants l).1

/-! ### The forced floor duty (R54) -/

theorem phaseWrite_dutyForced {p : Phase} {c : Cause} {s : State} (h : s.line.phase ≠ p) :
    DutyForced (phaseWrite p c s) := fun hp => (phaseWrite_duty h).trans (floorDuty_forced hp)

theorem dutyForced_invariant : ControlInvariant DutyForced where
  congr hl _ hd hs := by simpa [DutyForced, hl, hd] using hs
  duty _ _ hp := floorDuty_forced hp
  records s l hl hs := by
    obtain ⟨hphase, -⟩ := hl
    simpa [DutyForced, hphase] using hs
  phase _ _ _ _ hne _ := phaseWrite_dutyForced hne
  detectors _ _ _ _ hs := hs
  print s l hr hl _ _ := phaseWrite_dutyForced (by simp [hl, hr])
  breakIn s n hn _ := phaseWrite_dutyForced (by intro h; simp_all [Phase.heated])
  breakMove _ _ _ hs := hs
  breakOut s t hb hl _ := phaseWrite_dutyForced (by simp [hl, hb])
  tick _ hs := hs
  reset l := (resetMeetsInvariants l).2.1

/-! ### The counts, the purge and p_b (R58, R81, R116) -/

/-- A phase change empties the counts of the phase it leaves and starts the purge of the one it enters;
what it finds outside the phase left must be empty already. -/
theorem phaseWrite_countsFollow {p : Phase} {c : Cause} {s : State} (h : s.line.phase ≠ p)
    (hfill : s.line.phase ≠ .printing → p ≠ .printing → s.line.fill = 0 ∧ s.line.run = none)
    (hdrain : s.line.phase ≠ .draining → s.line.drain = 0)
    (hpb : s.line.phase ≠ .webBreak → (s.brk.pb.isSome ↔ p = .webBreak)) :
    CountsFollowPhase (phaseWrite p c s) := by
  simp only [CountsFollowPhase, phaseWrite_line h, phaseWrite_brk h, lineOnChange, breakOnChange]
  refine ⟨fun hp => ?_, fun _ => ?_, fun hp => ?_, ?_⟩
  · by_cases hold : s.line.phase = .printing
    · simp [hold]
    · simp [hold, hfill hold hp]
  · by_cases hold : s.line.phase = .draining
    · simp [hold]
    · simp [hold, hdrain hold]
  · simp [hp]
  · by_cases hold : s.line.phase = .webBreak
    · have hp : p ≠ .webBreak := fun e => h (hold.trans e.symm)
      simp [hold, hp]
    · simp [hold, hpb hold]

theorem countsFollowPhase_invariant : ControlInvariant CountsFollowPhase where
  congr hl hb _ hs := by simpa [CountsFollowPhase, hl, hb] using hs
  duty _ hs := hs
  records s l hl hs := by
    obtain ⟨hphase, -, -, hfill, hrun, hdrain, hpurge⟩ := hl
    obtain ⟨hf, hd, hp, hb⟩ := hs
    simp only [CountsFollowPhase, setLine_line, setLine_brk, hphase]
    refine ⟨fun hn => ⟨?_, hrun (hf hn).2⟩, fun hn => ?_, fun hn => ?_, hb⟩
    · have := (hf hn).1
      omega
    · rcases hdrain with h | h | h
      · exact h.trans (hd hn)
      · exact h
      · exact absurd h hn
    · obtain ⟨htimer, hvolume⟩ := hp hn
      rcases hpurge with ⟨h1, h2⟩ | h
      · rw [htimer, or_self] at h1
        rw [hvolume, or_self] at h2
        exact ⟨h1, h2⟩
      · exact absurd h hn
  phase p c s hp hne hs := by
    obtain ⟨hf, hd, -, hb⟩ := hs
    exact phaseWrite_countsFollow hne (fun h _ => hf h) hd (by simp [hb, hp])
  detectors s b hb hn hs := by
    obtain ⟨hf, hd, hp, -⟩ := hs
    exact ⟨hf, hd, hp, by simp [hb, hn]⟩
  print s l hr hl hdrain hs := by
    obtain ⟨-, hd, -, hb⟩ := hs
    refine phaseWrite_countsFollow (by simp [hl, hr]) (fun _ h => absurd rfl h) (fun _ => ?_) ?_
    · exact hdrain.trans (hd (by simp [hr]))
    · simp [hb, hr]
  breakIn s n hn hs := by
    obtain ⟨hf, hd, -, -⟩ := hs
    refine phaseWrite_countsFollow ?_ (fun h _ => hf h) hd (by simp)
    intro h
    simp_all [Phase.heated]
  breakMove s n hn hs := by
    obtain ⟨hf, hd, hp, -⟩ := hs
    exact ⟨hf, hd, hp, by simp [hn]⟩
  breakOut s t hb hl hs := by
    obtain ⟨hf, hd, -, -⟩ := hs
    rw [← hl] at hf hd hb
    exact phaseWrite_countsFollow (by simp [hb]) (fun h _ => hf h) hd (by simp [hb])
  tick s hs := by
    obtain ⟨hf, hd, hp, hb⟩ := hs
    refine ⟨hf, hd, fun hn => ?_, hb⟩
    obtain ⟨htimer, hvolume⟩ := hp hn
    exact ⟨by simp [PhaseUnit.tick, htimer, Timer.tick], hvolume⟩
  reset l := (resetMeetsInvariants l).2.2.1

/-- Settles O26: the three invariants look at the phase unit, p_b and the floor duty alone, and every
change of a command to these three keeps each of them. -/
theorem stepKeepsPhaseDiscipline : Obligations.StepKeepsPhaseDiscipline := fun _ _ h =>
  ⟨linesFollowPhase_invariant.step h, dutyForced_invariant.step h, countsFollowPhase_invariant.step h⟩

/-! ### The NOTE lines (R180) -/

theorem raiseSkips_noteOk {s : State} (h : ∀ p, NoteOk (s.port p)) (p : Port) :
    NoteOk ((raiseSkips s).port p) := by
  simp only [raiseSkips, setPorts_port, PerPort.get_of]
  split
  · exact raise_noteOk _ (h p)
  · exact h p

theorem evalWatermarks_noteOk {s : State} (h : ∀ p, NoteOk (s.port p)) (p : Port) :
    NoteOk ((evalWatermarks s).port p) := by
  simp only [evalWatermarks, setPorts_port, PerPort.get_of]
  exact setCondition_noteOk _ _ (h p)

theorem raiseAll_noteOk {s : State} (k : Notice) (h : ∀ p, NoteOk (s.port p)) (p : Port) :
    NoteOk ((raiseAll k s).port p) := by
  simp only [raiseAll, modPorts_port]
  exact raise_noteOk k (h p)

theorem modPort_noteOk {s : State} {f : PortState → PortState} (hf : ∀ q, NoteOk q → NoteOk (f q))
    (p : Port) (h : ∀ p, NoteOk (s.port p)) (x : Port) : NoteOk ((s.modPort p f).port x) := by
  rw [modPort_port]
  split
  · exact hf _ (h p)
  · exact h x

theorem raiseAt_noteOk {s : State} (k : Notice) (p : Port) (h : ∀ p, NoteOk (s.port p)) (x : Port) :
    NoteOk ((raiseAt k p s).port x) :=
  modPort_noteOk (fun _ => raise_noteOk k) p h x

theorem logPlace_noteOk {s : State} (b : LogBody) (h : ∀ p, NoteOk (s.port p)) (p : Port) :
    NoteOk ((logPlace b s).port p) := by
  unfold logPlace
  dsimp only
  refine evalWatermarks_noteOk (fun q => ?_) p
  exact raiseSkips_noteOk h q

theorem logAppend_noteOk {s : State} (b : LogBody) (h : ∀ p, NoteOk (s.port p)) :
    ∀ p, NoteOk ((logAppend b s).port p) := by
  unfold logAppend
  split
  · exact h
  · exact logPlace_noteOk b h
  · dsimp only
    split
    · exact raiseAll_noteOk (s := (logPlace b s).setLog _) _ (logPlace_noteOk b h)
    · exact logPlace_noteOk b h

theorem storeOutcome_noteOk {s : State} (o : ChangeOutcome) (h : ∀ p, NoteOk (s.port p)) :
    ∀ p, NoteOk ((storeOutcome o s).port p) :=
  raiseAt_noteOk (s := s.setArb _) _ _ h

theorem endInFlight_noteOk {s : State} (r : EndReason) (h : ∀ p, NoteOk (s.port p)) :
    ∀ p, NoteOk ((endInFlight r s).port p) := by
  unfold endInFlight
  split
  · exact h
  · exact storeOutcome_noteOk (s := s.setArb _) _ h

theorem storeEnds_noteOk {s : State} (r : EndReason) (l : List PendingEntry)
    (h : ∀ p, NoteOk (s.port p)) : ∀ p, NoteOk ((storeEnds r l s).port p) := by
  induction l generalizing s with
  | nil => exact h
  | cons e l ih => exact ih (storeOutcome_noteOk _ h)

theorem abortChanges_noteOk {s : State} (h : ∀ p, NoteOk (s.port p)) :
    ∀ p, NoteOk ((abortChanges s).port p) :=
  storeEnds_noteOk (s := (endInFlight .aborted s).setArb _) _ _ (endInFlight_noteOk _ h)

theorem arbiterPhaseChange_noteOk {s : State} (a b : Phase) (h : ∀ p, NoteOk (s.port p)) :
    ∀ p, NoteOk ((arbiterPhaseChange a b s).port p) := by
  unfold arbiterPhaseChange
  split
  · exact abortChanges_noteOk h
  · split
    · exact h
    · split <;> exact h

theorem phaseWrite_noteOk {s : State} (p : Phase) (c : Cause) (h : ∀ p, NoteOk (s.port p)) :
    ∀ q, NoteOk ((phaseWrite p c s).port q) := by
  unfold phaseWrite
  split
  · exact h
  · refine arbiterPhaseChange_noteOk _ _ (recompute_noteOk ?_)
    exact raiseAll_noteOk _ (logAppend_noteOk _ h)

theorem evolves_noteOk {s t : State} (e : Evolves s t) :
    (∀ p, NoteOk (s.port p)) → ∀ p, NoteOk (t.port p) := by
  refine e.keepsProp (P := fun s => ∀ p, NoteOk (s.port p)) (fun k p _ => raiseAt_noteOk k p)
    (fun k _ => raiseAll_noteOk k) (fun k p s hs => ?_) (fun _ => evalWatermarks_noteOk)
    (fun b _ => logAppend_noteOk b) (fun _ => recompute_noteOk) (fun _ _ hs => hs) (fun _ hs => hs)
    (fun _ _ _ hs => hs) (fun _ _ _ hs => hs) (fun p c _ _ => phaseWrite_noteOk p c)
  intro x
  simp only [raiseOthers, setPorts_port, PerPort.get_of]
  split
  · exact hs x
  · exact raise_noteOk k (hs x)

theorem works_noteOk {s t : State} (w : Works s t) :
    (∀ p, NoteOk (s.port p)) → ∀ p, NoteOk (t.port p) := by
  induction w with
  | refl s => exact id
  | trans _ _ h k => exact k ∘ h
  | evolves e => exact evolves_noteOk e
  | port s p f hf => exact modPort_noteOk hf p
  | ports s f hf =>
    intro hs p
    rw [modPorts_port]
    exact hf _ (hs p)
  | print => exact fun hs => phaseWrite_noteOk _ _ hs
  | breakIn => exact fun hs => phaseWrite_noteOk _ _ hs
  | breakOut _ _ _ _ _ hp => exact fun hs => phaseWrite_noteOk _ _ (hp hs)
  | motion => exact id
  | ring => exact id
  | load => exact id
  | pwm => exact id
  | prof => exact id
  | detectors => exact id
  | estop => exact id
  | log => exact id
  | breakMove => exact id

/-- Settles O29: every operation on a port sets its NOTE line from its pending set, or leaves both. -/
theorem stepKeepsNoteLines : Obligations.StepKeepsNoteLines := by
  intro s t hs h
  refine step_keeps (P := NoteFollowsPending) (fun l u => ?_) (fun _ _ => works_noteOk)
    (fun u v hv => ?_) (fun u hu p => ?_) h hs
  · exact (resetMeetsInvariants l).2.2.2.2.2.2.2.1
  · obtain ⟨-, -, -, -, -, -, -, -, hports, -⟩ := prepared_fields hv
    intro hu p
    have hport : v.port p = u.port p := by simp [State.port, hports]
    rw [hport]
    exact hu p
  · rw [tick_port]
    exact hu p

end Sys2Proof.Machine
end

section
/-! PROOFS. What keeps the envelope and the floor duty current (R55, R70): an operation either leaves alone
what they are formed from, or forms them anew. -/
namespace Sys2Proof.Machine

/-! ### What they are formed from -/

/-- The chill entry temperature reads the temperatures of the records alone (R63). -/
theorem chillEntry_congr {pr : Profile} {l m : List SegRecord}
    (h : m.map SegRecord.temp? = l.map SegRecord.temp?) : chillEntry pr m = chillEntry pr l := by
  have hf : ∀ k : List SegRecord, k.filterMap SegRecord.temp? =
      (k.map SegRecord.temp?).filterMap id := fun k => by simp [List.filterMap_map]
  simp only [chillEntry, hf, List.map_drop, List.map_take, h]

/-- Everything the envelope and the floor duty are formed from, the idle flag apart, is the same. -/
structure SameFeeds (s t : State) : Prop where
  committed : t.prof.committed = s.prof.committed
  temps : t.ring.records.map SegRecord.temp? = s.ring.records.map SegRecord.temp?
  inputs : t.ring.inputs = s.ring.inputs
  release : t.ring.release = s.ring.release
  lastKind : t.ring.lastKind = s.ring.lastKind
  vMeas : t.motion.vMeas = s.motion.vMeas
  tStep : t.motion.tStep = s.motion.tStep
  moves : t.motion.state = s.motion.state
  flow : t.load.flow = s.load.flow
  peak : t.load.peak = s.load.peak
  baseDuty : t.load.baseDuty = s.load.baseDuty
  phase : t.line.phase = s.line.phase
  fill : 0 < t.line.fill ↔ 0 < s.line.fill
  limit : ∀ q, t.lostUnderLimit q = s.lostUnderLimit q

/-- Liveness and loss action belong to the link part of a port. -/
theorem lostUnderLimit_congr {s t : State} {q : Port} (h : (t.port q).link = (s.port q).link) :
    t.lostUnderLimit q = s.lostUnderLimit q := by
  obtain ⟨-, -, -, -, -, hlive, -, haction, -⟩ := PortState.of_link h
  simp [State.lostUnderLimit, hlive, haction]

namespace SameFeeds

variable {s t : State}

theorem envelope (h : SameFeeds s t) (hidle : t.env.idle = s.env.idle) :
    envelopeOf t = envelopeOf s := by
  have hempty : emptyEnvelope t.env = emptyEnvelope s.env := by simp [emptyEnvelope, hidle]
  have htrial : ∀ pr, predictionTime pr t.motion = predictionTime pr s.motion := fun pr => by
    simp [predictionTime, h.moves, h.tStep]
  simp [envelopeOf, h.committed, hempty, htrial, components, vapourComponent, portComponent,
    chillEntry_congr h.temps, h.inputs, h.lastKind, h.vMeas, h.peak, h.phase, h.fill, h.limit, hidle]

theorem duty (h : SameFeeds s t) : floorDuty t = floorDuty s := by
  simp [floorDuty, h.committed, h.phase, h.flow, h.peak, h.baseDuty, h.release, h.limit]

theorem of_plant (k : KeepsPlant s t) (hphase : t.line.phase = s.line.phase)
    (hfill : 0 < t.line.fill ↔ 0 < s.line.fill) : SameFeeds s t := by
  obtain ⟨-, hmotion, hring, hflow, -, hpeak, -, -, -, hbase, -, -, hprof, -, -, hlink⟩ := k
  exact
    { committed := by rw [hprof], temps := by rw [hring], inputs := by rw [hring]
      release := by rw [hring], lastKind := by rw [hring], vMeas := by rw [hmotion]
      tStep := by rw [hmotion], moves := by rw [hmotion], flow := hflow, peak := hpeak
      baseDuty := hbase, phase := hphase, fill := hfill
      limit := fun q => lostUnderLimit_congr (hlink q) }

theorem of_line (k : KeepsPlant s t) (hline : t.line = s.line) : SameFeeds s t :=
  .of_plant k (by rw [hline]) (by rw [hline])

end SameFeeds

/-! ### Keeping both current -/

/-- The envelope stays the one a recomputation would give, and the floor duty the one R54 gives. -/
structure KeepsCurrent (s t : State) : Prop where
  env : EnvelopeCurrent s → EnvelopeCurrent t
  duty : DutyCurrent s → DutyCurrent t

namespace KeepsCurrent

variable {s t u : State}

theorem refl (s : State) : KeepsCurrent s s := ⟨id, id⟩

theorem trans (h : KeepsCurrent s t) (k : KeepsCurrent t u) : KeepsCurrent s u :=
  ⟨k.env ∘ h.env, k.duty ∘ h.duty⟩

theorem of_feeds (h : SameFeeds s t) (henv : t.env = s.env)
    (hduty : t.load.floorDuty = s.load.floorDuty) : KeepsCurrent s t := by
  constructor
  · intro hs
    rw [EnvelopeCurrent, henv, h.envelope (by rw [henv])]
    exact hs
  · intro hs
    rw [DutyCurrent, hduty, h.duty]
    exact hs

/-- Nothing but notices, log, arbiter and p_b differs. -/
theorem of_frame (k : KeepsPlant s t) (hline : t.line = s.line) (henv : t.env = s.env)
    (hload : t.load = s.load) : KeepsCurrent s t :=
  .of_feeds (.of_line k hline) henv (by rw [hload])

theorem of_arbiter (h : ArbiterOnly s t) : KeepsCurrent s t := by
  refine .of_frame ?_ ?_ ?_ ?_ <;> simp_all [ArbiterOnly, KeepsPlant]

/-- A record of the phase unit that holds no phase and no fill count. -/
theorem setLine (s : State) (l : PhaseUnit) (hphase : l.phase = s.line.phase)
    (hfill : 0 < l.fill ↔ 0 < s.line.fill) : KeepsCurrent s (s.setLine l) :=
  .of_feeds (.of_plant (by simp [KeepsPlant]) hphase hfill) rfl rfl

theorem setArb (s : State) (a : Arbiter) : KeepsCurrent s (s.setArb a) :=
  .of_arbiter (by simp [ArbiterOnly])

end KeepsCurrent

/-! ### Formed anew -/

theorem recompute_envelopeCurrent (s : State) : EnvelopeCurrent (recompute s) := by
  have h : SameFeeds s (recompute s) := .of_line (by simp [KeepsPlant]) (by simp)
  rw [EnvelopeCurrent, h.envelope (by simp), recompute_env]

theorem setFloorDuty_dutyCurrent (s : State) : DutyCurrent (setFloorDuty s) := by
  have h : SameFeeds s (setFloorDuty s) := .of_line (by simp [KeepsPlant]) (by simp)
  rw [DutyCurrent, h.duty, setFloorDuty_load]

/-- What leaves the feeds of the floor duty alone keeps it current. -/
theorem DutyCurrent.congr {s t : State} (hs : DutyCurrent s) (hp : t.prof = s.prof)
    (hl : t.line.phase = s.line.phase) (hd : t.load = s.load)
    (hr : t.ring.release = s.ring.release) (hq : (t.port .dryer).link = (s.port .dryer).link) :
    DutyCurrent t := by
  have h : floorDuty t = floorDuty s :=
    floorDuty_congr hp hl (by rw [hd]) (by rw [hd]) (by rw [hd]) hr hq
  rw [DutyCurrent, h, hd]
  exact hs

theorem recompute_dutyCurrent {s : State} (hs : DutyCurrent s) : DutyCurrent (recompute s) :=
  hs.congr (by simp) (by simp) (by simp) (by simp) (by simp)

theorem setIdle_dutyCurrent (b : Bool) {s : State} (hs : DutyCurrent s) : DutyCurrent (setIdle b s) :=
  hs.congr rfl rfl rfl rfl rfl

theorem recompute_current (s : State) : KeepsCurrent s (recompute s) :=
  ⟨fun _ => recompute_envelopeCurrent s, recompute_dutyCurrent⟩

theorem raiseAt_current (k : Notice) (p : Port) (s : State) : KeepsCurrent s (raiseAt k p s) :=
  .of_frame (by simp [KeepsPlant]) rfl rfl rfl

theorem raiseAll_current (k : Notice) (s : State) : KeepsCurrent s (raiseAll k s) :=
  .of_frame (by simp [KeepsPlant]) rfl rfl rfl

theorem logAppend_current (b : LogBody) (s : State) : KeepsCurrent s (logAppend b s) :=
  .of_frame (by simp [KeepsPlant]) (by simp) (by simp) (by simp)

/-! ### The phase change (R55, R70) -/

theorem phaseWrite_envelopeCurrent {p : Phase} {c : Cause} {s : State} (h : s.line.phase ≠ p) :
    EnvelopeCurrent (phaseWrite p c s) := by
  rw [phaseWrite, if_neg h]
  exact (KeepsCurrent.of_arbiter (arbiterPhaseChange_frame _ _ _)).env (recompute_envelopeCurrent _)

theorem phaseWrite_dutyCurrent {p : Phase} {c : Cause} {s : State} (h : s.line.phase ≠ p) :
    DutyCurrent (phaseWrite p c s) := phaseWrite_duty h

theorem phaseWrite_current (p : Phase) (c : Cause) (s : State) :
    KeepsCurrent s (phaseWrite p c s) := by
  by_cases h : s.line.phase = p
  · rw [phaseWrite_same h]
    exact .refl s
  · exact ⟨fun _ => phaseWrite_envelopeCurrent h, fun _ => phaseWrite_dutyCurrent h⟩

theorem writeReady_current (b : Bool) (s : State) : KeepsCurrent s (writeReady b s) :=
  .setLine s _ rfl .rfl

theorem enterHeating_current (c : Cause) (s : State) : KeepsCurrent s (enterHeating c s) := by
  have h := (phaseWrite_current .heating c s).trans
    (writeReady_current (phaseWrite .heating c s).isReady _)
  unfold enterHeating
  dsimp only
  split
  · exact h.trans (phaseWrite_current _ _ _)
  · exact h

theorem evaluateReady_current (s : State) : KeepsCurrent s (evaluateReady s) := by
  have h := writeReady_current s.isReady s
  unfold evaluateReady
  dsimp only
  split
  · split
    · exact h.trans (phaseWrite_current _ _ _)
    · exact h
  · split
    · exact h
    · exact h.trans (enterHeating_current _ _)
  · exact h
  all_goals exact .refl s

theorem endDrain_current (s : State) : KeepsCurrent s (endDrain s) := by
  have h := writeReady_current s.isReady s
  unfold endDrain
  dsimp only
  split
  · exact h.trans (phaseWrite_current _ _ _)
  · exact h.trans (enterHeating_current _ _)

theorem enterDraining_current (c : Cause) (s : State) : KeepsCurrent s (enterDraining c s) := by
  have h : KeepsCurrent s ((phaseWrite .draining c s).setLine
      { (phaseWrite .draining c s).line with drain := (phaseWrite .draining c s).drainNow }) :=
    (phaseWrite_current _ _ _).trans (.setLine _ _ rfl .rfl)
  unfold enterDraining
  dsimp only
  split
  · exact h.trans (endDrain_current _)
  · exact h

theorem enterSafe_current (c : Cause) (s : State) : KeepsCurrent s (enterSafe c s) := by
  unfold enterSafe
  split
  · exact .refl s
  · exact phaseWrite_current _ _ _

theorem lossPhase_current (p : Port) (s : State) : KeepsCurrent s (lossPhase p s) := by
  unfold lossPhase
  split
  · exact .refl s
  · split
    · exact enterDraining_current _ _
    · exact .refl s
  · exact enterSafe_current _ _

/-! ### The arbiter -/

theorem putRecord_current (key : ChangeKey) (v : Int) (s : State) :
    KeepsCurrent s (s.setLine (s.line.putRecord key v)) := by
  cases key <;> exact .setLine s _ rfl .rfl

theorem writeRecord_current (key : ChangeKey) (v : Int) (s : State) :
    KeepsCurrent s (writeRecord key v s) := by
  have h := (putRecord_current key v s).trans (recompute_current _)
  unfold writeRecord
  dsimp only
  split
  · exact h
  · exact h
  · exact h.trans (evaluateReady_current _)
  · exact h.trans (evaluateReady_current _)

theorem arbiterPass_current (s : State) : KeepsCurrent s (arbiterPass s) := by
  unfold arbiterPass
  split
  · split
    · exact (KeepsCurrent.setArb s _).trans (writeRecord_current _ _ _)
    · exact .refl s
  all_goals exact .refl s

theorem endInFlight_current (r : EndReason) (s : State) : KeepsCurrent s (endInFlight r s) :=
  .of_arbiter (endInFlight_frame r s)

theorem endPending_current (f : PendingEntry → Bool) (r : EndReason) (s : State) :
    KeepsCurrent s (endPending f r s) := .of_arbiter (endPending_frame f r s)

theorem abortChanges_current (s : State) : KeepsCurrent s (abortChanges s) :=
  .of_arbiter (abortChanges_frame s)

theorem settleSpeed_current (pr : Profile) (c : InFlight) (s : State) :
    KeepsCurrent s (settleSpeed pr c s) := by
  have hend := (endInFlight_current .settled s).trans (arbiterPass_current _)
  unfold settleSpeed
  dsimp only
  split
  · exact hend
  · split
    · exact (KeepsCurrent.setArb s _).trans (writeRecord_current _ _ _)
    · split
      · exact hend
      · exact (KeepsCurrent.setArb s _).trans (arbiterPass_current _)

theorem settleObserve_current (o : Observation) (s : State) : KeepsCurrent s (settleObserve o s) := by
  unfold settleObserve
  split
  · split
    · dsimp only
      have h := KeepsCurrent.setArb s { s.arb with settleCount := min 255 (s.arb.settleCount + 1) }
      split
      · refine h.trans ?_
        unfold settleChange
        split
        · exact settleSpeed_current _ _ _
        · exact (endInFlight_current _ _).trans (arbiterPass_current _)
      · exact h
    · exact .setArb s _
    · exact .refl s
  all_goals exact .refl s

theorem takeAtOnce_current (key : ChangeKey) (v : Int) (s : State) :
    KeepsCurrent s (takeAtOnce key v s) := by
  have h : KeepsCurrent s (endInFlightOf key .cancelled s) := by
    unfold endInFlightOf
    split
    · exact endInFlight_current _ _
    · exact .refl s
  exact ((h.trans (endPending_current _ _ _)).trans (writeRecord_current _ _ _)).trans
    (arbiterPass_current _)

theorem placeInList_current {pr : Profile} {key : ChangeKey} {v : Int} {s : State} {a : Admission}
    (h : placeChange.placeInList pr key v s = some a) : KeepsCurrent s a.state := by
  unfold placeChange.placeInList at h
  dsimp only at h
  split at h
  · obtain rfl := Option.some.inj h
    exact (KeepsCurrent.setArb s _).trans (arbiterPass_current _)
  · split at h
    · exact absurd h (by simp)
    · obtain rfl := Option.some.inj h
      exact (KeepsCurrent.setArb s _).trans (arbiterPass_current _)

theorem placeChange_current {pr : Profile} {key : ChangeKey} {v : Int} {s : State} {a : Admission}
    (h : placeChange pr key v s = some a) : KeepsCurrent s a.state := by
  unfold placeChange at h
  split at h
  · split at h
    · obtain rfl := Option.some.inj h
      exact .setArb s _
    · exact placeInList_current h
  · exact placeInList_current h

theorem cancelChange_current (key : ChangeKey) (s : State) : KeepsCurrent s (cancelChange key s) := by
  have h : KeepsCurrent s (endPendingOf key .cancelled s) := endPending_current _ _ _
  unfold cancelChange
  dsimp only
  split
  · exact (h.trans (endInFlight_current _ _)).trans (arbiterPass_current _)
  · exact h

/-! ### The counts at an ADVANCE -/

/-- The fill count is a feed of the ceiling only where it reaches 0, and there the envelope is recomputed
(R90). -/
theorem fillStep_current (s : State) : KeepsCurrent s (fillStep s) := by
  unfold fillStep
  split
  · next hc =>
    dsimp only
    split
    · refine ⟨fun _ => recompute_envelopeCurrent _, fun hs => recompute_dutyCurrent ?_⟩
      exact hs.congr (by simp) (by simp) (by simp) (by simp) (by simp)
    · next hne => exact .setLine s _ rfl (by simp; omega)
  · exact .refl s

theorem runStep_current (s : State) : KeepsCurrent s (runStep s) := by
  have h : ∀ (x : Option RunCount) (m : Nat),
      KeepsCurrent s (s.setLine { s.line with run := x, mark := m }) := fun x m => .setLine s _ rfl .rfl
  unfold runStep
  split
  · exact .refl s
  · split
    · split
      · unfold runEnd
        split
        · exact ((h _ _).trans (logAppend_current _ _)).trans (raiseAt_current _ _ _)
        · exact ((h _ s.line.mark).trans (raiseAt_current _ _ _)).trans (enterDraining_current _ _)
      · exact h _ s.line.mark
    · exact .refl s

theorem drainStep_current (s : State) : KeepsCurrent s (drainStep s) := by
  unfold drainStep
  split
  · dsimp only
    have h : KeepsCurrent s (s.setLine { s.line with drain := s.line.drain - 1 }) :=
      .setLine s _ rfl .rfl
    split
    · exact h.trans (endDrain_current _)
    · exact h
  · exact .refl s

theorem excessTest_current (pr : Profile) (c : Nat) (s : State) :
    KeepsCurrent s (excessTest pr c s) := by
  have h : ∀ t : Timer, KeepsCurrent s (s.setLine { s.line with excess := t }) := fun t =>
    .setLine s _ rfl .rfl
  unfold excessTest
  split
  · split
    · split
      · exact .refl s
      · exact h _
    · exact h _
  · exact .refl s

theorem phaseAdvance_current (pr : Profile) (c : Nat) (s : State) :
    KeepsCurrent s (phaseAdvance pr c s) :=
  (((fillStep_current s).trans (runStep_current _)).trans (drainStep_current _)).trans
    (excessTest_current _ _ _)

end Sys2Proof.Machine
end

section
/-! PROOFS. What keeps the log and the pending list within their bounds (R134, R151, R153), the ring whole
(R7, R8) and the profile tables at eight zones (R190). -/
namespace Sys2Proof.Machine

/-! ### The log (R151, R153) -/

theorem place_length {l : TransitLog} (r : LogRecord) (h : l.records.length ≤ Config.logCapacity) :
    (l.place r).records.length = min Config.logCapacity (l.records.length + 1) := by
  unfold TransitLog.place
  dsimp only
  split <;> simp [Config.logCapacity] at * <;> omega

theorem place_logOk {l : TransitLog} (r : LogRecord) (h : LogOk l) : LogOk (l.place r) := by
  obtain ⟨hlen, hunread⟩ := h
  have hplace := place_length r hlen
  refine ⟨by rw [hplace]; exact Nat.min_le_left _ _, fun p => ?_⟩
  have hp := hunread p
  rw [hplace]
  by_cases hd : l.discardsUnread p
  · simp [TransitLog.place, hd, Config.logCapacity] at *
    omega
  · have hkept : Config.logCapacity ≤ l.records.length → l.unread.get p ≠ l.records.length :=
      fun hfull hall => hd (by simp only [TransitLog.discardsUnread, hfull, hall, decide_true,
        BEq.rfl, Bool.and_self])
    simp [TransitLog.place, hd]
    simp [Config.logCapacity] at *
    omega

theorem logAppend_logOk {s : State} (b : LogBody) (h : LogOk s.log) : LogOk (logAppend b s).log := by
  unfold logAppend
  split
  · exact h
  · rw [logPlace_log]
    exact place_logOk _ h
  · have hplace : LogOk (logPlace b s).log := by
      rw [logPlace_log]
      exact place_logOk _ h
    dsimp only
    split
    · exact hplace
    · exact hplace

/-- A phase change appends its PHASE record and touches the log no further (R81). -/
theorem phaseWrite_log {p : Phase} {c : Cause} {s : State} (h : s.line.phase ≠ p) :
    (phaseWrite p c s).log = (logAppend (.phase s.line.phase p c s.motion.vMeas) s).log := by
  simp [phaseWrite, h]

theorem phaseWrite_logOk {s : State} (p : Phase) (c : Cause) (h : LogOk s.log) :
    LogOk (phaseWrite p c s).log := by
  by_cases hp : s.line.phase = p
  · rwa [phaseWrite_same hp]
  · rw [phaseWrite_log hp]
    exact logAppend_logOk _ h

theorem evolves_logOk {s t : State} (e : Evolves s t) : LogOk s.log → LogOk t.log := by
  refine e.keepsProp (P := fun s => LogOk s.log) (fun _ _ _ => id) (fun _ _ => id) (fun _ _ _ => id)
    (fun _ => id) (fun b _ => logAppend_logOk b) (fun s hs => ?_) (fun _ _ => id) (fun _ => id)
    (fun _ _ _ => id) (fun _ _ _ => id) (fun p c _ _ => phaseWrite_logOk p c)
  simpa using hs

theorem works_logOk {s t : State} (w : Works s t) : LogOk s.log → LogOk t.log := by
  induction w with
  | refl s => exact id
  | trans _ _ h k => exact k ∘ h
  | evolves e => exact evolves_logOk e
  | log _ _ h => exact h
  | print s l => exact phaseWrite_logOk (s := s.setLine l) _ _
  | breakIn s n => exact phaseWrite_logOk (s := s.setBrk { s.brk with pb := some n }) _ _
  | breakOut _ _ _ _ hg => exact fun hs => phaseWrite_logOk _ _ (hg ▸ hs)
  | motion => exact id
  | ring => exact id
  | load => exact id
  | pwm => exact id
  | prof => exact id
  | detectors => exact id
  | estop => exact id
  | port => exact id
  | ports => exact id
  | breakMove => exact id

theorem step_keeps_logBounded {s t : State} (h : step s = .next t) : LogBounded s → LogBounded t := by
  refine step_keeps (P := LogBounded) (fun l _ => ?_) (fun _ _ => works_logOk) (fun u v hv => ?_)
    (fun _ => id) h
  · exact (resetMeetsInvariants l).2.2.2.2.2.1
  · obtain ⟨-, -, -, -, -, -, hlog, -⟩ := prepared_fields hv
    rw [LogBounded, LogBounded, hlog]
    exact id

/-! ### The pending list (R134) -/

theorem phaseWrite_list_length (p : Phase) (c : Cause) (s : State) :
    (phaseWrite p c s).arb.list.length ≤ s.arb.list.length := by
  by_cases hp : s.line.phase = p
  · rw [phaseWrite_same hp]
  · rw [phaseWrite, if_neg hp]
    refine (arbiterPhaseChange_list _ _ _).trans_eq ?_
    simp

theorem phaseWrite_pendingBounded {s : State} (p : Phase) (c : Cause) (h : PendingBounded s) :
    PendingBounded (phaseWrite p c s) := (phaseWrite_list_length p c s).trans h

theorem PendingBounded.congr {s t : State} (ha : t.arb = s.arb) (h : PendingBounded s) :
    PendingBounded t := by
  rw [PendingBounded, ha]
  exact h

theorem evolves_pendingBounded {s t : State} (e : Evolves s t) :
    PendingBounded s → PendingBounded t := by
  refine e.keepsProp (fun _ _ _ => id) (fun _ _ => id) (fun _ _ _ => id) (fun _ => id)
    (fun _ _ => .congr (by simp)) (fun _ => .congr (by simp)) (fun _ _ => id) (fun _ => id)
    (fun s a ha hs => ?_) (fun _ _ _ => id) (fun p c _ _ => phaseWrite_pendingBounded p c)
  rcases ha with ha | ha
  · exact ha.trans hs
  · exact ha

theorem works_pendingBounded {s t : State} (w : Works s t) : PendingBounded s → PendingBounded t := by
  induction w with
  | refl s => exact id
  | trans _ _ h k => exact k ∘ h
  | evolves e => exact evolves_pendingBounded e
  | print s l => exact phaseWrite_pendingBounded (s := s.setLine l) _ _
  | breakIn s n => exact phaseWrite_pendingBounded (s := s.setBrk { s.brk with pb := some n }) _ _
  | breakOut _ _ _ ha => exact fun hs => phaseWrite_pendingBounded _ _ (hs.congr ha)
  | motion => exact id
  | ring => exact id
  | load => exact id
  | pwm => exact id
  | prof => exact id
  | detectors => exact id
  | estop => exact id
  | port => exact id
  | ports => exact id
  | log => exact id
  | breakMove => exact id

theorem step_keeps_pendingBounded {s t : State} (h : step s = .next t) :
    PendingBounded s → PendingBounded t := by
  refine step_keeps (fun l _ => ?_) (fun _ _ => works_pendingBounded) (fun u v hv => ?_)
    (fun u hu => ?_) h
  · exact Nat.zero_le _
  · obtain ⟨-, -, -, -, -, harb, -⟩ := prepared_fields hv
    exact .congr harb
  · simpa [PendingBounded, tick, Arbiter.tick] using hu

/-! ### Places of the ring (R3) -/

theorem placesFrom_length (z : Nat) (l : List ZoneItems) : (placesFrom z l).length = spanSum l := by
  induction l generalizing z with
  | nil => rfl
  | cons e l ih => simp [placesFrom, ih, spanSum]

theorem places_length (pr : Profile) : pr.places.length = pr.ringLength := placesFrom_length 0 pr.used

/-! ### Sequence numbers (R8) -/

/-- The record `i` places below the youngest is numbered `i + 1` below the entry counter. -/
theorem seqFrom_iff {n : Word16} {l : List SegRecord} :
    SeqFrom n l ↔ ∀ i r, l[i]? = some r → r.seq + BitVec.ofNat 16 (i + 1) = n := by
  induction l generalizing n with
  | nil => simp [SeqFrom]
  | cons r l ih =>
    simp only [SeqFrom, ih]
    constructor
    · rintro ⟨hr, hl⟩ i x hx
      cases i with
      | zero =>
        obtain rfl : r = x := by simpa using hx
        exact hr
      | succ i =>
        rw [← hr, ← hl i x (by simpa using hx), BitVec.ofNat_add (i + 1) 1]
        exact (BitVec.add_assoc _ _ _).symm
    · intro h
      have hr : r.seq + 1 = n := h 0 r rfl
      refine ⟨hr, fun i x hx => ?_⟩
      have hx := h (i + 1) x (by simpa using hx)
      rw [BitVec.ofNat_add (i + 1) 1, ← BitVec.add_assoc, ← hr] at hx
      exact (BitVec.add_left_inj _).mp hx

/-! ### The ring and the profile tables -/

/-- The ring is whole, and its records agree with their kinds. -/
def RingWell (s : State) : Prop := RingWhole s ∧ RecordsAgree s

/-- The ring stays whole, and the profile tables keep their eight zones. -/
structure KeepsWhole (s t : State) : Prop where
  ring : RingWell s → RingWell t
  tables : TablesWhole s → TablesWhole t

namespace KeepsWhole

variable {s t u : State}

theorem refl (s : State) : KeepsWhole s s := ⟨id, id⟩

theorem trans (h : KeepsWhole s t) (k : KeepsWhole t u) : KeepsWhole s u :=
  ⟨k.ring ∘ h.ring, k.tables ∘ h.tables⟩

theorem of_eq (hr : t.ring.records = s.ring.records) (hc : t.ring.entryCounter = s.ring.entryCounter)
    (hp : t.prof.committed = s.prof.committed) (hs : t.prof.staged = s.prof.staged) :
    KeepsWhole s t := by
  constructor
  · simp only [RingWell, RingWhole, RecordsAgree, hr, hc, hp]
    exact id
  · simp only [TablesWhole, hp, hs]
    exact id

theorem of_plant (k : KeepsPlant s t) : KeepsWhole s t := by
  obtain ⟨-, -, hring, -, -, -, -, -, -, -, -, -, hprof, -⟩ := k
  exact .of_eq (by rw [hring]) (by rw [hring]) (by rw [hprof]) (by rw [hprof])

theorem of_evolves (e : Evolves s t) : KeepsWhole s t := .of_plant e.keeps

end KeepsWhole

/-- A ring whose records stand in their places, each with its number and in agreement with its kind, is
whole. -/
theorem RingWell.of_pointwise {s t : State} (h : RingWell s)
    (hp : t.prof.committed = s.prof.committed) (hc : t.ring.entryCounter = s.ring.entryCounter)
    (hlen : t.ring.records.length = s.ring.records.length)
    (hrec : ∀ (i : Nat) (x : SegRecord), t.ring.records[i]? = some x →
      ∃ r, s.ring.records[i]? = some r ∧ x.seq = r.seq ∧ (r.Agrees → x.Agrees)) : RingWell t := by
  obtain ⟨⟨hfull, hseq⟩, hagree⟩ := h
  refine ⟨⟨?_, ?_⟩, fun x hx => ?_⟩
  · rw [hp]
    cases hpr : s.prof.committed with
    | none =>
      rw [hpr] at hfull
      exact List.length_eq_zero_iff.mp (hlen.trans (List.length_eq_zero_iff.mpr hfull))
    | some pr =>
      rw [hpr] at hfull
      exact ⟨hfull.1, hlen.trans hfull.2⟩
  · rw [hc, seqFrom_iff]
    intro i x hx
    obtain ⟨r, hr, hxr, -⟩ := hrec i x hx
    rw [hxr]
    exact seqFrom_iff.mp hseq i r hr
  · obtain ⟨i, hi⟩ := List.mem_iff_getElem?.mp hx
    obtain ⟨r, hr, -, hxr⟩ := hrec i x hi
    exact hxr (hagree r (List.mem_of_getElem? hr))

/-! ### The segment computation keeps a record's number and agreement (R7) -/

theorem heatRecord_seq (k : Nat) (a : Int) (r : SegRecord) : (heatRecord k a r).seq = r.seq := by
  by_cases hv : r.kind = .void
  · rw [heatRecord_of_void k a hv]
  · cases hh : r.heat with
    | none => rw [heatRecord_of_no_heat k a hh]
    | some h => rw [heatRecord_of_heat k a hv hh]

theorem computeRecord_seq (pr : Profile) (inputs : List Int) (t : Nat) (pl : Place) (r : SegRecord) :
    (computeRecord pr inputs t pl r).record.seq = r.seq := heatRecord_seq _ _ r

theorem computeRecord_kind (pr : Profile) (inputs : List Int) (t : Nat) (pl : Place) (r : SegRecord) :
    (computeRecord pr inputs t pl r).record.kind = r.kind := heatRecord_kind _ _ r

theorem computeRecord_agrees (pr : Profile) (inputs : List Int) (t : Nat) (pl : Place)
    {r : SegRecord} (hr : r.Agrees) : (computeRecord pr inputs t pl r).record.Agrees := by
  obtain ⟨hsolvent, hvoid, hheat⟩ := hr
  refine ⟨fun hk => ?_, fun hk => ?_, fun hk => ?_⟩ <;> rw [computeRecord_kind] at hk
  · rw [computeRecord_solvent, hsolvent hk, Nat.zero_sub]
  · rw [computeRecord_of_void pr inputs t pl r hk]
    exact hvoid hk
  · obtain ⟨h, hh, -⟩ := hheat hk
    exact ⟨_, computeRecord_heat_of_heat hk hh, le_max_right _ _⟩

theorem strandHot_fields (pr : Profile) (z : ZoneItems) (r : SegRecord) :
    strandHot pr z r = r ∨ strandHot pr z r = { r with stranded := true } := by
  unfold strandHot
  split
  · split
    · split
      · exact .inr rfl
      · exact .inl rfl
    · exact .inl rfl
  · exact .inl rfl

theorem computeAll_length {pr : Profile} {rg : Ring} (t : Nat)
    (h : rg.records.length = pr.ringLength) : (computeAll pr rg t).length = pr.ringLength := by
  simp [computeAll, places_length, h]

/-- What is computed at a position is the record there, computed at its place. -/
theorem computeAll_getElem? {pr : Profile} {rg : Ring} {t i : Nat} {c : Computed}
    (h : (computeAll pr rg t)[i]? = some c) :
    ∃ pl r, pr.places[i]? = some pl ∧ rg.records[i]? = some r ∧
      c = computeRecord pr rg.inputs t pl r := by
  obtain ⟨pl, r, hpl, hr, rfl⟩ := List.getElem?_zipWith_eq_some.mp h
  exact ⟨pl, r, hpl, hr, rfl⟩

/-! ### The two steps of the ring -/

theorem enteringRecord_agrees (pr : Profile) (rg : Ring) (ph : Phase) :
    (enteringRecord pr rg ph).Agrees := by
  by_cases h : ph = .printing <;> simp [SegRecord.Agrees, enteringRecord, h]

/-- An ADVANCE moves every record one place down and numbers the new one by the entry counter (R15,
R19). -/
theorem advanceRing_ringWell {pr : Profile} {s t : State} (n : Nat) (ph : Phase) (h : RingWell s)
    (hp : s.prof.committed = some pr) (hq : t.prof.committed = some pr)
    (hr : t.ring = advanceRing pr ph n s.ring) : RingWell t := by
  obtain ⟨⟨hfull, hseq⟩, hagree⟩ := h
  rw [hp] at hfull
  obtain ⟨hpos, hlen⟩ := hfull
  have hold : ∀ (i : Nat) (x : SegRecord),
      (((computeAll pr s.ring n).map (·.record)).dropLast)[i]? = some x →
      ∃ pl r, s.ring.records[i]? = some r ∧
        x = (computeRecord pr s.ring.inputs n pl r).record := by
    intro i x hx
    rw [List.getElem?_dropLast] at hx
    split at hx
    · obtain ⟨c, hc, rfl⟩ := by simpa using hx
      obtain ⟨pl, r, -, hr, rfl⟩ := computeAll_getElem? hc
      exact ⟨pl, r, hr, rfl⟩
    · exact absurd hx (by simp)
  refine ⟨⟨?_, ?_⟩, fun x hx => ?_⟩
  · rw [hq, hr]
    refine ⟨hpos, ?_⟩
    simp only [advanceRing, List.length_cons, List.length_dropLast, List.length_map,
      computeAll_length n hlen]
    omega
  · rw [hr, seqFrom_iff]
    intro i x hx
    cases i with
    | zero =>
      obtain rfl : enteringRecord pr s.ring ph = x := by simpa [advanceRing] using hx
      rfl
    | succ i =>
      obtain ⟨pl, r, hri, rfl⟩ := hold i x (by simpa [advanceRing] using hx)
      rw [computeRecord_seq, BitVec.ofNat_add (i + 1) 1, ← BitVec.add_assoc,
        seqFrom_iff.mp hseq i r hri]
      rfl
  · rw [hr] at hx
    rcases List.mem_cons.mp hx with rfl | hx
    · exact enteringRecord_agrees _ _ _
    · obtain ⟨i, hi⟩ := List.mem_iff_getElem?.mp hx
      obtain ⟨pl, r, hri, rfl⟩ := hold i x hi
      exact computeRecord_agrees _ _ _ _ (hagree r (List.mem_of_getElem? hri))

/-- A DWELL step keeps every record in its place (R20). -/
theorem dwellRing_ringWell {pr : Profile} {s t : State} (n : Nat) (h : RingWell s)
    (hp : s.prof.committed = some pr) (hq : t.prof.committed = some pr)
    (hr : t.ring = dwellRing pr n s.ring) : RingWell t := by
  have hlen : s.ring.records.length = pr.ringLength := by
    have hfull := h.1.1
    rw [hp] at hfull
    exact hfull.2
  refine h.of_pointwise (hq.trans hp.symm) (by rw [hr]; rfl) ?_ fun i x hx => ?_
  · rw [hr]
    simp [dwellRing, computeAll_length n hlen, places_length, hlen]
  · rw [hr] at hx
    obtain ⟨pl, c, -, hc, rfl⟩ := List.getElem?_zipWith_eq_some.mp hx
    obtain ⟨pl', r, -, hri, rfl⟩ := computeAll_getElem? hc
    refine ⟨r, hri, ?_⟩
    have hc := computeRecord_agrees pr s.ring.inputs n pl' (r := r)
    have hn := computeRecord_seq pr s.ring.inputs n pl' r
    rcases strandHot_fields pr pl.entry (computeRecord pr s.ring.inputs n pl' r).record with e | e <;>
      rw [e]
    · exact ⟨hn, hc⟩
    · exact ⟨hn, hc⟩

/-! ### Void, strand, restore, rebuild (R10, R23 to R25) -/

theorem voidFrom_getElem? (p i : Nat) (l : List SegRecord) :
    (voidFrom p l)[i]? = if i ≤ p then l[i]? else (l[i]?).map voidRecord := by
  unfold voidFrom
  by_cases hi : i ≤ p
  · rw [if_pos hi]
    by_cases hl : i < l.length
    · rw [List.getElem?_append_left (by simp; omega), List.getElem?_take_of_lt (by omega)]
    · rw [List.getElem?_eq_none (by simp; omega), List.getElem?_eq_none (by omega)]
  · rw [if_neg hi]
    by_cases hl : p + 1 ≤ l.length
    · rw [List.getElem?_append_right (by simp; omega)]
      have hlen : (l.take (p + 1)).length = p + 1 := by simp; omega
      rw [hlen, List.getElem?_map, List.getElem?_drop]
      congr 2
      omega
    · rw [List.getElem?_eq_none (by simp; omega), List.getElem?_eq_none (by omega)]
      rfl

/-- A record of the strand operation: stranded, unless it is VOID. -/
def strandRecord (r : SegRecord) : SegRecord :=
  if r.kind = .void then r else { r with stranded := true }

theorem strandTo_getElem? (pr : Profile) (p i : Nat) (l : List SegRecord) :
    (strandTo pr p l)[i]? =
      if i ≤ p ∧ i < pr.dryerLength then (l[i]?).map strandRecord else l[i]? := by
  have hdef : strandTo pr p l =
      (l.take (min (p + 1) pr.dryerLength)).map strandRecord ++
        l.drop (min (p + 1) pr.dryerLength) := rfl
  rw [hdef]
  by_cases hi : i ≤ p ∧ i < pr.dryerLength
  · rw [if_pos hi]
    by_cases hl : i < l.length
    · rw [List.getElem?_append_left (by simp; omega), List.getElem?_map,
        List.getElem?_take_of_lt (by omega)]
    · rw [List.getElem?_eq_none (by simp; omega), List.getElem?_eq_none (by omega)]
      rfl
  · rw [if_neg hi]
    by_cases hl : min (p + 1) pr.dryerLength ≤ l.length
    · rw [List.getElem?_append_right (by simp; omega)]
      have hlen : ((l.take (min (p + 1) pr.dryerLength)).map strandRecord).length =
          min (p + 1) pr.dryerLength := by simp; omega
      rw [hlen, List.getElem?_drop]
      congr 1
      omega
    · rw [List.getElem?_eq_none (by simp; omega), List.getElem?_eq_none (by omega)]

theorem voidFrom_length (p : Nat) (l : List SegRecord) : (voidFrom p l).length = l.length := by
  simp [voidFrom]
  omega

theorem strandTo_length (pr : Profile) (p : Nat) (l : List SegRecord) :
    (strandTo pr p l).length = l.length := by
  simp [strandTo]
  omega

theorem voidRecord_agrees {r : SegRecord} (h : r.Agrees) : (voidRecord r).Agrees := by
  unfold voidRecord
  split
  · exact h
  · simp [SegRecord.Agrees]

theorem voidRecord_seq (r : SegRecord) : (voidRecord r).seq = r.seq := by
  unfold voidRecord
  split <;> rfl

theorem strandRecord_agrees {r : SegRecord} (h : r.Agrees) : (strandRecord r).Agrees := by
  unfold strandRecord
  split
  · exact h
  · exact h

theorem strandRecord_seq (r : SegRecord) : (strandRecord r).seq = r.seq := by
  unfold strandRecord
  split <;> rfl

/-- Stranding changes no temperature the chill entry temperature reads. -/
theorem strandTo_temps (pr : Profile) (p : Nat) (l : List SegRecord) :
    (strandTo pr p l).map SegRecord.temp? = l.map SegRecord.temp? := by
  refine List.ext_getElem? fun i => ?_
  have hr : ∀ r, (strandRecord r).temp? = r.temp? := fun r => by
    unfold strandRecord
    split <;> rfl
  rw [List.getElem?_map, List.getElem?_map, strandTo_getElem?]
  split
  · cases l[i]? with
    | none => rfl
    | some r => simp [hr]
  · rfl

theorem restoreRecord_agrees (pr : Profile) {r : SegRecord} (h : r.Agrees) :
    (restoreRecord pr r).Agrees := by
  unfold restoreRecord
  split
  · simp [SegRecord.Agrees]
  · exact h

theorem restoreRecord_seq (pr : Profile) (r : SegRecord) : (restoreRecord pr r).seq = r.seq := by
  unfold restoreRecord
  split <;> rfl

/-- An operation that puts `f` of some records in their places keeps the ring whole. -/
theorem KeepsWhole.of_records {s t : State} {f : SegRecord → SegRecord}
    (hs : ∀ r, (f r).seq = r.seq) (ha : ∀ r : SegRecord, r.Agrees → (f r).Agrees)
    (hlen : t.ring.records.length = s.ring.records.length)
    (hrec : ∀ i : Nat, t.ring.records[i]? = s.ring.records[i]? ∨
      t.ring.records[i]? = (s.ring.records[i]?).map f)
    (hc : t.ring.entryCounter = s.ring.entryCounter) (hp : t.prof = s.prof) : KeepsWhole s t := by
  refine ⟨fun h => h.of_pointwise (by rw [hp]) hc hlen fun i x hx => ?_, ?_⟩
  · rcases hrec i with e | e <;> rw [e] at hx
    · exact ⟨x, hx, rfl, id⟩
    · obtain ⟨r, hr, rfl⟩ := by simpa using hx
      exact ⟨r, hr, hs r, ha r⟩
  · rw [TablesWhole, TablesWhole, hp]
    exact id

theorem ringVoid_whole (p : Nat) (s : State) : KeepsWhole s (ringVoid p s) := by
  refine .of_records voidRecord_seq (fun _ => voidRecord_agrees) ?_ (fun i => ?_) ?_ ?_
  · simp [ringVoid, voidFrom_length]
  · by_cases hi : i ≤ p <;> simp [ringVoid, voidFrom_getElem?, hi]
  · simp [ringVoid]
  · simp [ringVoid]

theorem ringStrand_whole (pr : Profile) (p : Nat) (s : State) : KeepsWhole s (ringStrand pr p s) := by
  refine .of_records strandRecord_seq (fun _ => strandRecord_agrees) ?_ (fun i => ?_) rfl rfl
  · exact strandTo_length pr p _
  · by_cases hi : i ≤ p ∧ i < pr.dryerLength <;> simp [ringStrand, strandTo_getElem?, hi]

theorem ringRestore_whole (pr : Profile) (s : State) : KeepsWhole s (ringRestore pr s) := by
  refine .of_records (restoreRecord_seq pr) (fun _ => restoreRecord_agrees pr) ?_ (fun i => ?_) ?_ ?_
  · simp [ringRestore]
  · simp [ringRestore]
  · simp [ringRestore]
  · simp [ringRestore]

theorem rebuiltRecords_getElem? {ambient : Int} {n i : Nat} {r : SegRecord}
    (h : (rebuiltRecords ambient n)[i]? = some r) :
    i < n ∧ r =
      { seq := BitVec.ofNat 16 (n - 1 - i), kind := .blank, solvent := 0,
        heat := some { temp := ambient, peak := ambient }, stranded := false, tag := none } := by
  unfold rebuiltRecords at h
  rw [List.getElem?_map] at h
  by_cases hi : i < n
  · rw [List.getElem?_range hi] at h
    exact ⟨hi, (Option.some.inj h).symm⟩
  · rw [List.getElem?_eq_none (by simp; omega)] at h
    exact absurd h (by simp)

/-- A rebuilt ring of a map with places is whole (R10). -/
theorem rebuildRing_ringWell {pr : Profile} {t : State} (rg : Ring) (hpos : 0 < pr.ringLength)
    (hp : t.prof.committed = some pr) (hr : t.ring = rebuildRing pr rg) : RingWell t := by
  refine ⟨⟨?_, ?_⟩, fun x hx => ?_⟩
  · rw [hp, hr]
    exact ⟨hpos, by simp [rebuildRing, rebuiltRecords]⟩
  · rw [hr, seqFrom_iff]
    intro i x hx
    obtain ⟨hi, rfl⟩ := rebuiltRecords_getElem? hx
    rw [← BitVec.ofNat_add]
    congr 1
    omega
  · rw [hr] at hx
    obtain ⟨i, hi⟩ := List.mem_iff_getElem?.mp hx
    obtain ⟨-, rfl⟩ := rebuiltRecords_getElem? hi
    simp [SegRecord.Agrees]

/-! ### The profile tables (R190, R194) -/

theorem modZone_zones_length (x : Profile) (z : Nat) (f : ZoneItems → ZoneItems) :
    (x.modZone z f).zones.length = x.zones.length := by
  simp [Profile.modZone]

/-- A write of an item leaves the number of zone entries as it was. -/
def ItemRow.KeepsZones (r : ItemRow) : Prop := ∀ x v, (r.put x v).zones.length = x.zones.length

theorem zoneRows_keepsZones (z : Nat) : ∀ r ∈ zoneRows z, r.KeepsZones := by
  simp [zoneRows, natRow, ItemRow.KeepsZones, modZone_zones_length]

theorem detectorRows_keepsZones (d : Detector) : ∀ r ∈ detectorRows d, r.KeepsZones := by
  simp [detectorRows, natRow, ItemRow.KeepsZones]

theorem portRows_keepsZones (p : Port) : ∀ r ∈ portRows p, r.KeepsZones := by
  simp [portRows, natRow, ItemRow.KeepsZones]

theorem plainRows_keepsZones :
    ∀ r ∈ motionAndLoadRows ++ limitRows ++ timingAndFlowRows, r.KeepsZones := by
  simp [motionAndLoadRows, limitRows, timingAndFlowRows, natRow, ItemRow.KeepsZones]

theorem itemRows_keepsZones : ∀ r ∈ itemRows, r.KeepsZones := by
  unfold itemRows
  intro r hr
  simp only [List.mem_append, or_assoc] at hr
  have hplain := plainRows_keepsZones r
  simp only [List.mem_append, or_assoc] at hplain
  rcases hr with h | h | h | h | h | h | h | h | h | h | h | h | h | h | h | h | h | h
  case inl => exact hplain (.inl h)
  case inr.inl => exact hplain (.inr (.inl h))
  case inr.inr.inl => exact hplain (.inr (.inr h))
  all_goals first
    | exact zoneRows_keepsZones _ r h
    | exact detectorRows_keepsZones _ r h
    | exact portRows_keepsZones _ r h

theorem writeItem_zones {x y : Profile} {id : Nat} {v : Int} (h : x.writeItem id v = some y) :
    y.zones.length = x.zones.length := by
  unfold Profile.writeItem at h
  split at h
  · exact absurd h (by simp)
  · next r hr =>
    split at h
    · obtain rfl := Option.some.inj h
      exact itemRows_keepsZones r (List.mem_of_find?_eq_some hr) x v
    · exact absurd h (by simp)

/-- A table that passes the checks begins with a DRYER zone of at least one position (R194). -/
theorem ringLength_pos_of_checked {x : Profile} (h : x.firstFailure = none) : 0 < x.ringLength := by
  have hall := List.find?_eq_none.mp h
  have hmem : ∀ id ∈ [0x40, 0x41], id ∈ itemRows.map (·.id) := by decide
  have hkind : kindCheck x 0 = true := by
    simpa [itemCheck] using hall 0x40 (hmem _ (by simp))
  have hspan : spanCheck x 0 = true := by
    simpa [itemCheck] using hall 0x41 (hmem _ (by simp))
  have hdryer : (x.zoneAt 0).kind = .dryer := by
    simp only [kindCheck, if_true, Bool.and_eq_true, beq_iff_eq] at hkind
    exact hkind.1
  have hone : 1 ≤ (x.zoneAt 0).span := by
    simp only [spanCheck, hdryer, Bool.or_eq_true, Bool.and_eq_true, decide_eq_true_eq] at hspan
    rcases hspan with h | h
    · exact absurd h (by decide)
    · exact h.1
  cases hz : x.zones with
  | nil => exact absurd hdryer (by simp [Profile.zoneAt, hz, defaultNoneZone])
  | cons e l =>
    have he : x.zoneAt 0 = e := by simp [Profile.zoneAt, hz]
    rw [he] at hdryer hone
    simp [Profile.ringLength, Profile.used, hz, hdryer, spanSum]
    omega

end Sys2Proof.Machine
end

section
/-! PROOFS. Every command but RESET keeps the envelope and the floor duty current (R55, R70), the ring whole
(R7, R8) and the tables whole (R190): the operations of the blocks. -/
namespace Sys2Proof.Machine

/-- The time base, the PWM stage, the queue and the model's counter do not move. -/
abbrev Untimed (s t : State) : Prop :=
  t.time = s.time ∧ t.pwm = s.pwm ∧ t.pending = s.pending ∧ t.freeCount = s.freeCount

theorem KeepsPlant.untimed {s t : State} (h : KeepsPlant s t) : Untimed s t := by
  obtain ⟨htime, -, -, -, -, -, -, -, -, -, hpwm, -, -, hpending, hcount, -⟩ := h
  exact ⟨htime, hpwm, hpending, hcount⟩

/-- The ring and the tables stay whole, and nothing of `Untimed` moves. -/
structure Intact (s t : State) : Prop where
  whole : KeepsWhole s t
  clock : Untimed s t

namespace Intact

variable {s t u : State}

theorem refl (s : State) : Intact s s := ⟨.refl s, rfl, rfl, rfl, rfl⟩

theorem trans (h : Intact s t) (k : Intact t u) : Intact s u := by
  obtain ⟨htime, hpwm, hpending, hcount⟩ := h.clock
  obtain ⟨ktime, kpwm, kpending, kcount⟩ := k.clock
  exact ⟨h.whole.trans k.whole, ktime.trans htime, kpwm.trans hpwm, kpending.trans hpending,
    kcount.trans hcount⟩

theorem of_eq (hr : t.ring.records = s.ring.records) (hc : t.ring.entryCounter = s.ring.entryCounter)
    (hp : t.prof.committed = s.prof.committed) (hs : t.prof.staged = s.prof.staged)
    (hclock : Untimed s t) : Intact s t := ⟨.of_eq hr hc hp hs, hclock⟩

theorem of_plant (k : KeepsPlant s t) : Intact s t := ⟨.of_plant k, k.untimed⟩

theorem of_evolves (e : Evolves s t) : Intact s t := .of_plant e.keeps

end Intact

/-- The envelope and the floor duty stay current, the ring, the tables and the clock intact. -/
structure Sound (s t : State) : Prop where
  current : KeepsCurrent s t
  intact : Intact s t

namespace Sound

variable {s t u : State}

theorem refl (s : State) : Sound s s := ⟨.refl s, .refl s⟩

theorem trans (h : Sound s t) (k : Sound t u) : Sound s u :=
  ⟨h.current.trans k.current, h.intact.trans k.intact⟩

theorem of_evolves (e : Evolves s t) (c : KeepsCurrent s t) : Sound s t := ⟨c, .of_evolves e⟩

/-- What both are formed from is formed anew. -/
theorem fresh (w : Intact s t) (he : EnvelopeCurrent t) (hd : DutyCurrent t) : Sound s t :=
  ⟨⟨fun _ => he, fun _ => hd⟩, w⟩

/-- A recomputation after a change that leaves the floor duty current. -/
theorem recomputed (w : Intact s u) (d : DutyCurrent s → DutyCurrent u) :
    Sound s (recompute u) :=
  ⟨⟨fun _ => recompute_envelopeCurrent u, recompute_dutyCurrent ∘ d⟩,
    w.trans (.of_evolves (.recompute u))⟩

theorem of_feeds (h : SameFeeds s t) (henv : t.env = s.env)
    (hduty : t.load.floorDuty = s.load.floorDuty) (hr : t.ring.records = s.ring.records)
    (hc : t.ring.entryCounter = s.ring.entryCounter) (hp : t.prof = s.prof)
    (hclock : Untimed s t) : Sound s t :=
  ⟨.of_feeds h henv hduty, .of_eq hr hc (by rw [hp]) (by rw [hp]) hclock⟩

/-! ### One block's record -/

theorem motion (s : State) (m : Motion) (hv : m.vMeas = s.motion.vMeas)
    (ht : m.tStep = s.motion.tStep) (hm : m.state = s.motion.state) : Sound s (s.setMotion m) :=
  .of_feeds ⟨rfl, rfl, rfl, rfl, rfl, hv, ht, hm, rfl, rfl, rfl, rfl, .rfl, fun _ => rfl⟩
    rfl rfl rfl rfl rfl ⟨rfl, rfl, rfl, rfl⟩

theorem brk (s : State) (b : BreakUnit) : Sound s (s.setBrk b) :=
  .of_feeds ⟨rfl, rfl, rfl, rfl, rfl, rfl, rfl, rfl, rfl, rfl, rfl, rfl, .rfl, fun _ => rfl⟩
    rfl rfl rfl rfl rfl ⟨rfl, rfl, rfl, rfl⟩

theorem log (s : State) (l : TransitLog) : Sound s (s.setLog l) :=
  .of_feeds ⟨rfl, rfl, rfl, rfl, rfl, rfl, rfl, rfl, rfl, rfl, rfl, rfl, .rfl, fun _ => rfl⟩
    rfl rfl rfl rfl rfl ⟨rfl, rfl, rfl, rfl⟩

theorem arb (s : State) (a : Arbiter) : Sound s (s.setArb a) :=
  .of_feeds ⟨rfl, rfl, rfl, rfl, rfl, rfl, rfl, rfl, rfl, rfl, rfl, rfl, .rfl, fun _ => rfl⟩
    rfl rfl rfl rfl rfl ⟨rfl, rfl, rfl, rfl⟩

theorem line (s : State) (l : PhaseUnit) (hphase : l.phase = s.line.phase)
    (hfill : 0 < l.fill ↔ 0 < s.line.fill) : Sound s (s.setLine l) :=
  .of_feeds ⟨rfl, rfl, rfl, rfl, rfl, rfl, rfl, rfl, rfl, rfl, rfl, hphase, hfill, fun _ => rfl⟩
    rfl rfl rfl rfl rfl ⟨rfl, rfl, rfl, rfl⟩

/-- The charge and the tag of entering records feed neither. -/
theorem ring (s : State) (c : Nat) (tag : Option Nat) :
    Sound s (s.setRing { s.ring with charge := c, tag := tag }) :=
  .of_feeds ⟨rfl, rfl, rfl, rfl, rfl, rfl, rfl, rfl, rfl, rfl, rfl, rfl, .rfl, fun _ => rfl⟩
    rfl rfl rfl rfl rfl ⟨rfl, rfl, rfl, rfl⟩

/-- A port operation that leaves what `lostUnderLimit` tells. -/
theorem port (s : State) (p : Port) (f : PortState → PortState)
    (h : ∀ q : PortState, (f q).live = q.live ∧ (f q).action = q.action) : Sound s (s.modPort p f) := by
  refine .of_feeds ⟨rfl, rfl, rfl, rfl, rfl, rfl, rfl, rfl, rfl, rfl, rfl, rfl, .rfl, fun q => ?_⟩
    rfl rfl rfl rfl rfl ⟨rfl, rfl, rfl, rfl⟩
  by_cases hq : q = p
  · subst hq
    simp [State.lostUnderLimit, h]
  · simp [State.lostUnderLimit, hq]

theorem ports (s : State) (f : PortState → PortState)
    (h : ∀ q : PortState, (f q).live = q.live ∧ (f q).action = q.action) : Sound s (s.modPorts f) :=
  .of_feeds ⟨rfl, rfl, rfl, rfl, rfl, rfl, rfl, rfl, rfl, rfl, rfl, rfl, .rfl,
    fun q => by simp [State.lostUnderLimit, h]⟩ rfl rfl rfl rfl rfl ⟨rfl, rfl, rfl, rfl⟩

/-- The staged table, its holder and its code feed neither. -/
theorem prof (s : State) (x : ProfileUnit) (hc : x.committed = s.prof.committed)
    (hs : TablesWhole s → x.staged.zones.length = 8) : Sound s (s.setProf x) := by
  refine ⟨.of_feeds ⟨hc, rfl, rfl, rfl, rfl, rfl, rfl, rfl, rfl, rfl, rfl, rfl, .rfl, fun _ => rfl⟩
    rfl rfl, ⟨fun hw => ?_, fun hw => ⟨hs hw, fun pr hpr => ?_⟩⟩, rfl, rfl, rfl, rfl⟩
  · simpa only [RingWell, RingWhole, RecordsAgree, setProf_prof, setProf_ring, hc] using hw
  · exact hw.2 pr (hc ▸ hpr)

/-! ### Notices, log, phase and arbiter -/

theorem raise (k : Notice) (s : State) : Sound s (raiseAll k s) :=
  ⟨raiseAll_current k s, .of_plant (by simp [KeepsPlant])⟩

theorem raiseOthers (k : Notice) (p : Port) (s : State) : Sound s (Machine.raiseOthers k p s) :=
  ⟨.of_frame (by simp [KeepsPlant]) (by simp) (by simp) (by simp), .of_plant (by simp [KeepsPlant])⟩

theorem condition (k : Notice) (b : Bool) (s : State) : Sound s (setConditionAll k b s) :=
  ⟨.of_frame (by simp [KeepsPlant]) (by simp) (by simp) (by simp), .of_plant (by simp [KeepsPlant])⟩

theorem watermarks (s : State) : Sound s (evalWatermarks s) :=
  ⟨.of_frame (by simp [KeepsPlant]) (by simp) (by simp) (by simp), .of_plant (by simp [KeepsPlant])⟩

theorem append (b : LogBody) (s : State) : Sound s (logAppend b s) :=
  .of_evolves (.append b s) (logAppend_current b s)

theorem phase (p : Phase) (c : Cause) (s : State) : Sound s (phaseWrite p c s) :=
  ⟨phaseWrite_current p c s, .of_plant (phaseWrite_frame p c s)⟩

theorem pass (h : Sound s t) : Sound s (arbiterPass t) :=
  h.trans (.of_evolves (arbiterPass_evolves t) (arbiterPass_current t))

theorem draining (c : Cause) (s : State) : Sound s (enterDraining c s) :=
  .of_evolves (enterDraining_evolves c s) (enterDraining_current c s)

theorem heating (c : Cause) (s : State) : Sound s (enterHeating c s) :=
  .of_evolves (enterHeating_evolves c s) (enterHeating_current c s)

theorem safe (c : Cause) (s : State) : Sound s (enterSafe c s) :=
  .of_evolves (enterSafe_evolves c s) (enterSafe_current c s)

theorem evaluated (s : State) : Sound s (evaluateReady s) :=
  .of_evolves (evaluateReady_evolves s) (evaluateReady_current s)

theorem observed (o : Observation) (s : State) : Sound s (settleObserve o s) :=
  .of_evolves (settleObserve_evolves o s) (settleObserve_current o s)

theorem aborted (s : State) : Sound s (abortChanges s) :=
  .of_evolves (abortChanges_evolves s) (abortChanges_current s)

theorem flightEnded (r : EndReason) (s : State) : Sound s (endInFlight r s) :=
  .of_evolves (endInFlight_evolves r s) (endInFlight_current r s)

theorem waitingEnded (f : PendingEntry → Bool) (r : EndReason) (s : State) :
    Sound s (endPending f r s) :=
  .of_evolves (endPending_evolves f r s) (endPending_current f r s)

theorem cancelled (key : ChangeKey) (s : State) : Sound s (cancelChange key s) :=
  .of_evolves (cancelChange_evolves key s) (cancelChange_current key s)

theorem atOnce (key : ChangeKey) (v : Int) (s : State) : Sound s (takeAtOnce key v s) :=
  .of_evolves (takeAtOnce_evolves key v s) (takeAtOnce_current key v s)

theorem ownerLost (p : Port) (s : State) : Sound s (ownerLoss p s) := by
  have h := waitingEnded (fun e => keyOwner e.key == p) .portLost s
  unfold ownerLoss
  dsimp only
  split
  · split
    · exact h.trans (flightEnded _ _)
    · exact h
  · exact h

end Sound

/-! ### The load unit -/

theorem evalLoadConditions_sound (s : State) : Sound s (evalLoadConditions s) := by
  unfold evalLoadConditions
  split <;> exact (Sound.condition _ _ _).trans (.condition _ _ _)

theorem evalStall_sound (s : State) : Sound s (evalStall s) := .condition _ _ _

theorem setLoad_intact (s : State) (l : Load) : Intact s (s.setLoad l) := .of_eq rfl rfl rfl rfl ⟨rfl, rfl, rfl, rfl⟩

theorem loadStep_intact (pr : Profile) (s : State) : Intact s (loadStep pr s) :=
  ((setLoad_intact s _).trans (evalLoadConditions_sound (loadTaken pr s)).intact).trans
    (.of_evolves (loadStep_evolves pr s))

/-- The floor duty is set after the loads, and a load trip sets it again (R51, R55). -/
theorem loadStep_dutyCurrent (pr : Profile) (s : State) : DutyCurrent (loadStep pr s) := by
  unfold loadStep
  dsimp only
  split
  · exact ((Sound.append _ _).trans (.safe _ _)).current.duty (setFloorDuty_dutyCurrent _)
  · exact setFloorDuty_dutyCurrent _

theorem loadReport_intact (pr : Profile) (f : Nat) (s : State) : Intact s (loadReport pr f s) :=
  ((setLoad_intact s _).trans (evalLoadConditions_sound _).intact).trans (.of_evolves (.duty _))

theorem loadReport_dutyCurrent (pr : Profile) (f : Nat) (s : State) :
    DutyCurrent (loadReport pr f s) := setFloorDuty_dutyCurrent _

/-! ### Steps -/

/-- A change of the motion unit and of timers, followed by a recomputation. -/
theorem Sound.moved {s : State} (m : Motion) (l : PhaseUnit) (hl : l.phase = s.line.phase) :
    Sound s (recompute (evalStall ((s.setMotion m).setLine l))) := by
  have hw : Intact s ((s.setMotion m).setLine l) := .of_eq rfl rfl rfl rfl ⟨rfl, rfl, rfl, rfl⟩
  refine .recomputed (hw.trans (evalStall_sound _).intact) fun hd => ?_
  exact (evalStall_sound _).current.duty (hd.congr rfl hl rfl rfl rfl)

theorem pulseMotion_sound (pr : Profile) (s : State) : Sound s (pulseMotion pr s) := by
  unfold pulseMotion
  split
  · exact .motion s _ rfl rfl rfl
  · exact (Sound.moved _ { s.line with stallGrace := none } rfl).pass

theorem becomeStill_sound (s : State) : Sound s (becomeStill s) := by
  unfold becomeStill
  split
  · exact .motion s _ rfl rfl rfl
  · dsimp only
    refine (Sound.moved _ _ ?_).pass
    rfl

/-- The blocks after the ring: loads, duty and envelope are formed anew before the phase unit counts. -/
theorem afterAdvance_sound {pr : Profile} {s u : State} (w : Intact s u) :
    Sound s (afterAdvance pr u) := by
  have hidle : Intact u (setIdle false (loadStep pr u)) :=
    (loadStep_intact pr u).trans (.of_evolves (.idle _ _))
  have hfresh : Sound s (recompute (setIdle false (loadStep pr u))) :=
    .recomputed (w.trans hidle) fun _ => setIdle_dutyCurrent _ (loadStep_dutyCurrent pr u)
  have hphase : ∀ c v, Sound v (phaseAdvance pr c v) := fun c v =>
    .of_evolves (phaseAdvance_evolves _ _ _) (phaseAdvance_current _ _ _)
  unfold afterAdvance
  dsimp only
  exact ((hfresh.pass.trans (hphase _ _)).pass).trans (.observed _ _)

theorem handOff_prof (pr : Profile) (r : SegRecord) (s : State) : (handOff pr r s).prof = s.prof := by
  obtain ⟨-, -, -, -, -, -, -, -, -, -, -, -, hprof, -⟩ := (handOff_evolves pr r s).keeps
  exact hprof

theorem ringAdvance_prof (pr : Profile) (t : Nat) (s : State) : (ringAdvance pr t s).prof = s.prof := by
  unfold ringAdvance
  dsimp only
  split
  · exact handOff_prof _ _ _
  · rfl

theorem ringAdvance_untimed (pr : Profile) (t : Nat) (s : State) :
    Untimed s (ringAdvance pr t s) := by
  unfold ringAdvance
  dsimp only
  split
  · exact (handOff_evolves _ _ _).keeps.untimed
  · exact ⟨rfl, rfl, rfl, rfl⟩

theorem ringAdvance_ring (pr : Profile) (t : Nat) (s : State) :
    (ringAdvance pr t s).ring = advanceRing pr s.line.phase t s.ring := rfl

theorem ringAdvance_intact {pr : Profile} {s : State} (t : Nat) (hp : s.prof.committed = some pr) :
    Intact s (ringAdvance pr t s) := by
  have hprof := ringAdvance_prof pr t s
  refine ⟨⟨fun h => advanceRing_ringWell t s.line.phase h hp (by rw [hprof, hp])
    (ringAdvance_ring pr t s), ?_⟩, ringAdvance_untimed pr t s⟩
  rw [TablesWhole, TablesWhole, hprof]
  exact id

theorem issueAdvance_sound {pr : Profile} {s : State} (hp : s.prof.committed = some pr) :
    Sound s (issueAdvance pr s) := by
  have hm : ∀ m, Intact s (s.setMotion m) := fun _ => .of_eq rfl rfl rfl rfl ⟨rfl, rfl, rfl, rfl⟩
  unfold issueAdvance
  dsimp only
  exact afterAdvance_sound ((hm _).trans (ringAdvance_intact _ hp))

theorem issueDwell_sound {pr : Profile} {s : State} (hp : s.prof.committed = some pr) :
    Sound s (issueDwell pr s) := by
  have hring : ∀ m n, Intact s ((s.setMotion m).setRing (dwellRing pr n s.ring)) := fun m n =>
    ⟨⟨fun h => dwellRing_ringWell n h hp hp rfl, id⟩, rfl, rfl, rfl, rfl⟩
  unfold issueDwell
  dsimp only
  refine (Sound.recomputed ((hring _ _).trans (loadStep_intact _ _)) fun _ => ?_).pass
  exact loadStep_dutyCurrent _ _

theorem pulseMotion_prof (pr : Profile) (s : State) : (pulseMotion pr s).prof = s.prof := by
  unfold pulseMotion
  split
  · rfl
  · simp [evalStall]

theorem forward_sound {pr : Profile} {s : State} (hp : s.prof.committed = some pr) :
    Sound s (forward pr s) := by
  have h := pulseMotion_sound pr s
  unfold forward
  dsimp only
  split
  · exact h.trans (.motion _ _ rfl rfl rfl)
  · split
    · exact h.trans (issueAdvance_sound (by rw [pulseMotion_prof, hp]))
    · exact h.trans (.motion _ _ rfl rfl rfl)

theorem backward_sound (pr : Profile) (s : State) : Sound s (backward pr s) := by
  have h := pulseMotion_sound pr s
  unfold backward
  dsimp only
  split <;> exact h.trans (.motion _ _ rfl rfl rfl)

/-! ### The timers of the phase unit -/

theorem purgeExpiry_sound (pr : Profile) (s : State) : Sound s (purgeExpiry pr s) := by
  have h := Sound.line s
    { s.line with purgeTimer := some Config.purgeLength, purgeVolume := purgeVolumeAfter pr s } rfl .rfl
  unfold purgeExpiry
  dsimp only
  split
  · exact (h.trans (.heating _ _)).pass
  · exact h

theorem stallGraceEnds_sound (s : State) : Sound s (stallGraceEnds s) := by
  have hline := Sound.line s { s.line with stallGrace := none } rfl .rfl
  have h : Sound s (recompute (setIdle true (s.setLine { s.line with stallGrace := none }))) :=
    .recomputed (hline.intact.trans (.of_evolves (.idle _ _)))
      (setIdle_dutyCurrent _ ∘ hline.current.duty)
  unfold stallGraceEnds
  dsimp only
  split
  · exact (h.trans (.draining _ _)).pass
  · exact h.pass

theorem excessEnds_sound (s : State) : Sound s (excessEnds s) := by
  have h := (Sound.line s { s.line with excess := none } rfl .rfl).trans (.raise .excess _)
  unfold excessEnds
  dsimp only
  split
  · exact (h.trans (.draining _ _)).pass
  · exact h

/-! ### Ports -/

theorem answer_sound (p : Port) (k : Byte) (pl : List Byte) (s : State) :
    Sound s (answer p k pl s) := by
  refine .port s p _ fun q => ?_
  unfold PortState.sendReply PortState.transmit
  split <;> exact ⟨rfl, rfl⟩

theorem receiverIdle_sound (p : Port) (s : State) : Sound s (receiverIdle p s) :=
  .port s p _ fun _ => ⟨rfl, rfl⟩

theorem receiverTo_sound (rx : Receiver) (p : Port) (s : State) : Sound s (receiverTo rx p s) :=
  .port s p _ fun _ => ⟨rfl, rfl⟩

/-- A port heard that was not LOST is under no LIMIT before or after. -/
theorem heard_sound {s : State} {p : Port} {w : Timer} (h : (s.port p).live ≠ .lost) :
    Sound s (s.modPort p (fun q => { q with live := .active, window := w })) := by
  refine .of_feeds ⟨rfl, rfl, rfl, rfl, rfl, rfl, rfl, rfl, rfl, rfl, rfl, rfl, .rfl, fun q => ?_⟩
    rfl rfl rfl rfl rfl ⟨rfl, rfl, rfl, rfl⟩
  by_cases hq : q = p
  · subst hq
    have hlive : ((s.port q).live == Liveness.lost) = false := by simpa using h
    simp [State.lostUnderLimit, hlive]
  · simp [State.lostUnderLimit, hq]

theorem modPort_intact (s : State) (p : Port) (f : PortState → PortState) :
    Intact s (s.modPort p f) := .of_eq rfl rfl rfl rfl ⟨rfl, rfl, rfl, rfl⟩

/-- A change of a port made known to the load unit and the envelope unit. -/
theorem Sound.madeKnown {s u : State} (w : Intact s u) :
    Sound s (arbiterPass (recompute (setFloorDuty u))) :=
  (Sound.recomputed (w.trans (.of_evolves (.duty _))) fun _ => setFloorDuty_dutyCurrent _).pass

theorem frameLiveness_sound (p : Port) (s : State) : Sound s (frameLiveness p s) := by
  unfold frameLiveness
  dsimp only
  split
  · next h => exact heard_sound (by simp [h])
  · next h => exact heard_sound (by simp [h])
  · exact .madeKnown ((modPort_intact _ _ _).trans (Sound.append _ _).intact)

theorem frameTaken_sound (p : Port) (s : State) : Sound s (frameTaken p s) :=
  (receiverIdle_sound p s).trans (frameLiveness_sound p _)

theorem failFrame_sound (p : Port) (k : Option Byte) (s : State) : Sound s (failFrame p k s) := by
  unfold failFrame
  split
  · exact (receiverIdle_sound p s).trans (answer_sound _ _ _ _)
  · exact receiverIdle_sound p s

theorem defaultTable_zones : Profile.default.zones.length = 8 := by decide

theorem inForce_zones {s : State} (h : TablesWhole s) : s.prof.inForce.zones.length = 8 := by
  unfold ProfileUnit.inForce
  split
  · next pr hpr => exact h.2 pr hpr
  · exact defaultTable_zones

theorem abandonProfile_sound (s : State) : Sound s (abandonProfile s) := .prof s _ rfl inForce_zones

theorem portLoss_sound (p : Port) (s : State) : Sound s (portLoss p s) := by
  have hlost : ∀ a, Intact s (ownerLoss p (raiseOthers .portLost p (logAppend a
      (s.modPort p (fun q => { q with live := .lost, window := none }))))) := fun a =>
    (modPort_intact _ _ _).trans
      (((Sound.append _ _).trans (.raiseOthers _ _ _)).trans (.ownerLost _ _)).intact
  unfold portLoss
  dsimp only
  refine .madeKnown (.trans ?_ (.of_evolves (lossPhase_evolves p _)))
  split
  · exact (hlost _).trans (abandonProfile_sound _).intact
  · exact hlost _

theorem windowExpiry_sound (p : Port) (s : State) : Sound s (windowExpiry p s) := by
  have h : Sound s (s.modPort p (fun q => { q with window := none })) :=
    .port s p _ fun _ => ⟨rfl, rfl⟩
  unfold windowExpiry
  split
  · exact portLoss_sound p s
  · exact h
  · exact h
  · exact .refl s

/-! ### The break unit -/

theorem ringVoid_sound (p : Nat) (s : State) : Sound s (ringVoid p s) :=
  ⟨⟨fun _ => recompute_envelopeCurrent _,
    fun h => recompute_dutyCurrent (h.congr rfl rfl rfl rfl rfl)⟩, ringVoid_whole p s, by simp [Untimed, ringVoid]⟩

theorem ringRestore_sound (pr : Profile) (s : State) : Sound s (ringRestore pr s) :=
  ⟨⟨fun _ => recompute_envelopeCurrent _,
    fun h => recompute_dutyCurrent (h.congr rfl rfl rfl rfl rfl)⟩, ringRestore_whole pr s,
    by simp [Untimed, ringRestore]⟩

theorem ringStrand_sound (pr : Profile) (p : Nat) (s : State) : Sound s (ringStrand pr p s) :=
  ⟨.of_feeds ⟨rfl, strandTo_temps pr p _, rfl, rfl, rfl, rfl, rfl, rfl, rfl, rfl, rfl, rfl, .rfl,
    fun _ => rfl⟩ rfl rfl, ringStrand_whole pr p s, rfl, rfl, rfl, rfl⟩

theorem recordArrival_sound (d : Detector) (n : Nat) (u : Bool) (s : State) :
    Sound s (recordArrival d n u s) :=
  ((Sound.append _ _).trans (.raise _ _)).trans (.brk _ _)

theorem armFreeze_sound (pr : Profile) (s : State) : Sound s (armFreeze pr s) := by
  unfold armFreeze
  split
  · exact .log s _
  · exact .refl s
  · exact .refl s

theorem breakResponse_sound (pr : Profile) (d : Detector) (s : State) :
    Sound s (breakResponse pr d s) := by
  have hcut : ∀ n t, Sound t (ringStrand pr n (ringVoid n t)) := fun n t =>
    (ringVoid_sound n t).trans (ringStrand_sound pr n _)
  unfold breakResponse
  dsimp only
  refine .trans ?_ (recordArrival_sound _ _ _ _)
  exact ((((Sound.brk _ _).trans (.phase _ _ _)).trans (hcut _ _)).trans (.aborted _)).trans
    (armFreeze_sound _ _)

theorem arrival_sound (d : Detector) (s : State) : Sound s (arrival d s) := by
  unfold arrival
  split
  · exact .refl s
  · split
    · exact breakResponse_sound _ _ _
    · split
      · exact (((Sound.brk _ _).trans (ringVoid_sound _ _)).trans (ringStrand_sound _ _ _)).trans
          (recordArrival_sound _ _ _ _)
      · exact recordArrival_sound _ _ _ _

theorem changeDetector_sound (d : Detector) (e : DetectorEntry) (s : State) :
    Sound s (changeDetector d e s) := by
  have h : Sound s (s.putDet d e) := .brk s _
  unfold changeDetector
  dsimp only
  split
  · exact h.trans (arrival_sound d _)
  · exact h

/-! ### Commit and RESTART -/

theorem settleConditions_sound {s u : State} (w : Intact s u) : Sound s (settleConditions u) := by
  have hidle : Intact u (setIdle false (setFloorDuty u)) :=
    .of_evolves (.trans (.duty _) (.idle _ _))
  have h : Sound s (recompute (setIdle false (setFloorDuty u))) :=
    .recomputed (w.trans hidle) fun _ => setIdle_dutyCurrent _ (setFloorDuty_dutyCurrent u)
  exact (h.trans (evalLoadConditions_sound _)).trans (evalStall_sound _)

theorem commitPorts_intact (p : Port) (pr : Profile) (s : State) :
    Intact s (commitPorts p pr s) := by
  have hraise : ∀ (a b : State) (q : Port) (u : State), Intact u (raiseUnderOld a b q u) := by
    intro a b q u
    unfold raiseUnderOld
    split
    · exact .of_evolves (.raiseAt _ _ _ rfl)
    · exact .refl u
  have hmarks : Intact s (commitWatermarks pr s) :=
    (((modPort_intact _ _ _).trans (modPort_intact _ _ _)).trans (modPort_intact _ _ _)).trans
      (.of_evolves (.watermarks _))
  unfold commitPorts
  dsimp only
  exact (((hmarks.trans (.of_evolves (.append _ _))).trans (hraise _ _ _ _)).trans
    (hraise _ _ _ _)).trans (hraise _ _ _ _)

/-- The ring rebuilt for the installed table is whole, for that table has passed its checks. -/
theorem commitRing_intact {s : State} (h : s.prof.staged.firstFailure = none) :
    Intact s (commitRing s.prof.staged (installProfile s)) where
  whole := ⟨fun _ => rebuildRing_ringWell _ (ringLength_pos_of_checked h) rfl rfl,
    fun hs => ⟨hs.1, fun _ hpr => Option.some.inj hpr ▸ hs.1⟩⟩
  clock := ⟨rfl, rfl, rfl, rfl⟩

theorem commitProfile_sound (p : Port) {s : State} (h : s.prof.staged.firstFailure = none) :
    Sound s (commitProfile p s) := by
  have habort : Evolves s (resetArrivals (abortChanges s)) :=
    .trans (abortChanges_evolves s) (resetArrivals_evolves _)
  have hprof : (resetArrivals (abortChanges s)).prof = s.prof := by simp [resetArrivals]
  have hring := commitRing_intact (s := resetArrivals (abortChanges s)) (by rw [hprof, h])
  rw [hprof] at hring
  have hblocks : ∀ u, Intact u (commitLoad s.prof.staged (commitMotion s.prof.staged u)) :=
    fun _ => .of_eq rfl rfl rfl rfl ⟨rfl, rfl, rfl, rfl⟩
  have hphase : ∀ u, Intact u (commitPhase (commitLine s.prof.staged u)) := fun u =>
    .of_evolves (.trans (commitLine_evolves _ _) (commitPhase_evolves _))
  have hdets : ∀ u, Intact u (commitDetectors s.prof.staged u) := fun _ => .of_eq rfl rfl rfl rfl ⟨rfl, rfl, rfl, rfl⟩
  unfold commitProfile
  dsimp only
  refine settleConditions_sound (.trans ?_ (commitPorts_intact p _ _))
  exact ((((Intact.of_evolves habort).trans hring).trans (hblocks _)).trans (hphase _)).trans
    (hdets _)

theorem restartRing_intact (s : State) : Intact s (restartRing s) := by
  unfold restartRing
  split
  · next pr hp =>
    refine ⟨⟨fun h => rebuildRing_ringWell s.ring ?_ hp rfl, id⟩, rfl, rfl, rfl, rfl⟩
    have hfull := h.1.1
    rw [hp] at hfull
    exact hfull.1
  · next hp =>
    refine ⟨⟨fun _ => ⟨⟨?_, trivial⟩, fun r hr => absurd hr (by simp)⟩, id⟩, rfl, rfl, rfl, rfl⟩
    rw [setRing_prof, hp]
    rfl

theorem restartAll_sound (p : Port) (s : State) : Sound s (restartAll p s) := by
  have habort : Intact s (resetArrivals (abortChanges s)) :=
    .of_evolves (.trans (abortChanges_evolves s) (resetArrivals_evolves _))
  have hload : ∀ u, Intact u (restartLoad u) := fun _ => .of_eq rfl rfl rfl rfl ⟨rfl, rfl, rfl, rfl⟩
  have hline : ∀ u, Intact u (clearLatches (restartLine u)) := fun _ => .of_eq rfl rfl rfl rfl ⟨rfl, rfl, rfl, rfl⟩
  have hduty : ∀ u, DutyCurrent (setIdle false (clearLatches (restartLine (restartLoad u)))) := by
    intro u
    have h : DutyCurrent (restartLoad u) := setFloorDuty_dutyCurrent _
    exact h.congr rfl rfl rfl rfl rfl
  have hfresh : Sound s (recompute (setIdle false (clearLatches (restartLine
      (restartLoad (restartRing (resetArrivals (abortChanges s)))))))) :=
    .recomputed ((((habort.trans (restartRing_intact _)).trans (hload _)).trans (hline _)).trans
      (.of_evolves (.idle _ _))) fun _ => hduty _
  have hlog : ∀ u, Sound u (restartLog p u) := fun u => by
    unfold restartLog
    dsimp only
    exact ((Sound.log _ _).trans (.watermarks _)).trans (.append _ _)
  have hports : ∀ u, Sound u (restartPorts u) := fun u => .ports u _ fun q => by
    unfold PortState.emptyPending PortState.noteAfter
    split
    · exact ⟨rfl, rfl⟩
    · split <;> exact ⟨rfl, rfl⟩
  exact ((hfresh.trans (evalLoadConditions_sound _)).trans (hlog _)).trans (hports _)

end Sys2Proof.Machine
end

section
/-! PROOFS. Every step keeps the envelope and the floor duty current (R55, R70), the lists within their bounds
(R134, R151, R153, R190) and the ring whole (R7, R8): requests, commands, the step. -/
namespace Sys2Proof.Machine

/-! ### Requests any port may send -/

theorem handleLogRead_sound (p : Port) (pl : List Byte) (s : State) :
    Sound s (handleLogRead p pl s).state := by
  unfold handleLogRead
  dsimp only
  split
  · exact (Sound.log _ _).trans (.watermarks _)
  · exact .refl s

theorem handleLogRelease_sound (p : Port) (pl : List Byte) (s : State) :
    Sound s (handleLogRelease p pl s).state := by
  have h : Sound s (releaseFreeze p s) := ((Sound.log _ _).trans (.append _ _)).trans (.log _ _)
  unfold handleLogRelease
  dsimp only
  split
  · exact h
  · exact h
  · exact .refl s

theorem emptyPending_sound (p : Port) (s : State) : Sound s (s.modPort p PortState.emptyPending) := by
  refine .port s p _ fun q => ?_
  obtain ⟨-, -, -, -, -, hlive, -, haction, -⟩ :=
    PortState.of_link (noteAfter_link q.holding { q with pendingSet := q.holding })
  exact ⟨hlive, haction⟩

theorem handleNoticeMap_sound (p : Port) (pl : List Byte) (s : State) :
    Sound s (handleNoticeMap p pl s).state := by
  unfold handleNoticeMap
  dsimp only
  split
  · exact .refl s
  · next mode _ => exact .port s p _ fun q => by cases mode <;> exact ⟨rfl, rfl⟩

theorem handleLossAction_sound (p : Port) (pl : List Byte) (s : State) :
    Sound s (handleLossAction p pl s).state := by
  unfold handleLossAction
  dsimp only
  split
  · exact .refl s
  · split
    · exact .refl s
    · exact .madeKnown (modPort_intact _ _ _)

theorem handleChangeCancel_sound (p : Port) (pl : List Byte) (s : State) :
    Sound s (handleChangeCancel p pl s).state := by
  unfold handleChangeCancel
  split
  · exact .refl s
  · split
    · exact .refl s
    · split
      · split
        · exact .cancelled _ _
        · exact .refl s
      · exact .refl s

/-! ### The profile requests -/

theorem handleProfileOpen_sound (p : Port) (pl : List Byte) (s : State) :
    Sound s (handleProfileOpen p pl s).state := by
  simp only [handleProfileOpen]
  split
  · exact .prof s _ rfl fun h => h.1
  · split <;> exact .refl s

theorem handleProfileWrite_sound (p : Port) (pl : List Byte) (s : State) :
    Sound s (handleProfileWrite p pl s).state := by
  simp only [handleProfileWrite]
  split
  · exact .refl s
  · split
    · split
      · exact .refl s
      · next y hy => exact .prof s _ rfl fun h => (writeItem_zones hy).trans h.1
    · exact .refl s

theorem handleProfileAbandon_sound (p : Port) (pl : List Byte) (s : State) :
    Sound s (handleProfileAbandon p pl s).state := by
  unfold handleProfileAbandon
  split
  · exact .refl s
  · split
    · exact abandonProfile_sound s
    · exact .refl s

theorem handleProfileCommit_sound (p : Port) (pl : List Byte) (s : State) :
    Sound s (handleProfileCommit p pl s).state := by
  unfold handleProfileCommit
  split
  · split
    · exact .refl s
    · split
      · split
        · exact .prof s _ rfl fun h => h.1
        · next hcheck => exact commitProfile_sound p hcheck
      · exact .refl s
  · exact .refl s

theorem handleRestart_sound (p : Port) (pl : List Byte) (s : State) :
    Sound s (handleRestart p pl s).state := by
  unfold handleRestart
  split
  · exact restartAll_sound p s
  · exact .refl s

/-! ### Change requests -/

theorem answerAdmission_sound (pr : Profile) (k : ChangeKey) (v : Int) (c : Bool) (r : List Byte)
    (s : State) : Sound s (answerAdmission pr k v c r s).state := by
  unfold answerAdmission
  split
  · exact .refl s
  · next h => exact .of_evolves (placeChange_evolves h) (placeChange_current h)

theorem answerAtOnce_sound (k : ChangeKey) (v : Int) (c : Bool) (r : List Byte) (s : State) :
    Sound s (answerAtOnce k v c r s).state := .atOnce k v s

theorem handleSpeedRamp_sound (p : Port) (pl : List Byte) (s : State) :
    Sound s (handleSpeedRamp p pl s).state := by
  simp only [handleSpeedRamp]
  split
  · exact .refl s
  · split
    · exact answerAtOnce_sound _ _ _ _ _
    · split
      · exact .refl s
      · split
        · exact .refl s
        · exact answerAdmission_sound _ _ _ _ _ _

theorem handleExhaustTarget_sound (p : Port) (pl : List Byte) (s : State) :
    Sound s (handleExhaustTarget p pl s).state := by
  simp only [handleExhaustTarget]
  split
  · exact .refl s
  · split
    · exact answerAtOnce_sound _ _ _ _ _
    · exact answerAdmission_sound _ _ _ _ _ _

theorem handleZoneSetpoint_sound (p : Port) (pl : List Byte) (s : State) :
    Sound s (handleZoneSetpoint p pl s).state := by
  simp only [handleZoneSetpoint]
  split
  · exact .refl s
  · split
    · split
      · split
        · exact answerAtOnce_sound _ _ _ _ _
        · exact answerAdmission_sound _ _ _ _ _ _
      · split
        · exact answerAtOnce_sound _ _ _ _ _
        · exact .refl s
    · exact .refl s

theorem handleChillSetpoint_sound (p : Port) (pl : List Byte) (s : State) :
    Sound s (handleChillSetpoint p pl s).state := by
  simp only [handleChillSetpoint]
  split
  · exact .refl s
  · split
    · split
      · exact answerAdmission_sound _ _ _ _ _ _
      · exact answerAtOnce_sound _ _ _ _ _
    · exact .refl s

/-! ### Phase requests -/

/-- The fill count is written with the change to PRINTING, which forms envelope and floor duty anew. -/
theorem printing_sound {s : State} (l : PhaseUnit) (h : l.phase ≠ .printing) :
    Sound s (phaseWrite .printing .impressionOn (s.setLine l)) := by
  have hw : Intact s (s.setLine l) := .of_eq rfl rfl rfl rfl ⟨rfl, rfl, rfl, rfl⟩
  exact .fresh (hw.trans (Sound.phase _ _ _).intact) (phaseWrite_envelopeCurrent h)
    (phaseWrite_dutyCurrent h)

theorem handleImpressionOn_sound (p : Port) (pl : List Byte) (s : State) :
    Sound s (handleImpressionOn p pl s).state := by
  simp only [handleImpressionOn]
  split
  · exact .refl s
  · split
    · next hr =>
      split
      · split
        · refine (printing_sound _ ?_).pass
          simp [hr]
        · exact .refl s
      · exact .refl s
    · exact .refl s

theorem handleImpressionOff_sound (p : Port) (pl : List Byte) (s : State) :
    Sound s (handleImpressionOff p pl s).state := by
  simp only [handleImpressionOff]
  split
  · exact (Sound.draining _ _).pass
  · exact .refl s

theorem handleJobTag_sound (p : Port) (pl : List Byte) (s : State) :
    Sound s (handleJobTag p pl s).state := by
  simp only [handleJobTag]
  split
  · exact .ring s s.ring.charge _
  · split
    · exact .refl s
    · exact .ring s s.ring.charge _
  · exact .refl s

theorem handleDetectorSet_sound (p : Port) (pl : List Byte) (s : State) :
    Sound s (handleDetectorSet p pl s).state := by
  simp only [handleDetectorSet]
  split
  · exact .refl s
  · split
    · exact changeDetector_sound _ _ _
    · exact .refl s

theorem handleBreakClear_sound (p : Port) (pl : List Byte) (s : State) :
    Sound s (handleBreakClear p pl s).state := by
  have hlatches : Sound s (clearLatches s) := .brk s _
  simp only [handleBreakClear]
  split
  · split
    · refine (Sound.trans ?_ (.phase _ _ _)).pass
      split
      · exact (hlatches.trans (.brk _ _)).trans (ringRestore_sound _ _)
      · exact hlatches.trans (.brk _ _)
    · exact .refl s
  · split
    · exact hlatches
    · exact .refl s

theorem handleSafeClear_sound (p : Port) (pl : List Byte) (s : State) :
    Sound s (handleSafeClear p pl s).state := by
  simp only [handleSafeClear]
  split
  · exact .refl s
  · split
    · split
      · exact ((ringRestore_sound _ _).trans (.phase _ _ _)).pass
      · exact .refl s
    · exact .refl s

theorem handlePurgeStart_sound (p : Port) (pl : List Byte) (s : State) :
    Sound s (handlePurgeStart p pl s).state := by
  simp only [handlePurgeStart]
  split
  · split
    · exact (Sound.phase _ _ _).pass
    · exact .refl s
  · exact .refl s

theorem handleCoolDown_sound (p : Port) (pl : List Byte) (s : State) :
    Sound s (handleCoolDown p pl s).state := by
  simp only [handleCoolDown]
  split
  · exact (Sound.phase _ _ _).pass
  · exact .refl s

/-! ### Reports -/

theorem setInputs_intact (s : State) (l : List Int) :
    Intact s (s.setRing { s.ring with inputs := l }) := .of_eq rfl rfl rfl rfl ⟨rfl, rfl, rfl, rfl⟩

theorem reportZoneHigh_sound (pr : Profile) (s : State) : Sound s (reportZoneHigh pr s) := by
  unfold reportZoneHigh
  split
  · exact .raise _ _
  · exact .refl s

/-- What follows an accepted report once the envelope is formed anew. -/
theorem Sound.reported {s t : State} (o : Observation) (h : Sound s t) :
    Sound s (settleObserve o (arbiterPass (evaluateReady (arbiterPass t)))) :=
  (h.pass.trans (.evaluated _)).pass.trans (.observed _ _)

theorem takeZoneReport_sound (pr : Profile) (f : Nat) (l : List Int) (s : State) :
    Sound s (takeZoneReport pr f l s) := by
  unfold takeZoneReport
  dsimp only
  refine .reported _ (.trans ?_ (reportZoneHigh_sound _ _))
  exact .recomputed ((setInputs_intact _ _).trans (loadReport_intact _ _ _)) fun _ =>
    loadReport_dutyCurrent _ _ _

theorem takeChillReport_sound (pr : Profile) (l : List Int) (s : State) :
    Sound s (takeChillReport pr l s) :=
  .reported _ (.recomputed (setInputs_intact _ _) fun h => h.congr rfl rfl rfl rfl rfl)

theorem handleZoneReport_sound (p : Port) (pl : List Byte) (s : State) :
    Sound s (handleZoneReport p pl s).state := by
  simp only [handleZoneReport]
  split
  · exact .refl s
  · split
    · exact takeZoneReport_sound _ _ _ _
    · exact .refl s

theorem handleChillReport_sound (p : Port) (pl : List Byte) (s : State) :
    Sound s (handleChillReport p pl s).state := by
  simp only [handleChillReport]
  split
  · exact .refl s
  · split
    · exact takeChillReport_sound _ _ _
    · exact .refl s

/-! ### Every request, every frame -/

theorem handleZoneRead_state (p : Port) (pl : List Byte) (s : State) :
    (handleZoneRead p pl s).state = s := by
  unfold handleZoneRead
  split
  · rfl
  · dsimp only
    split <;> rfl

theorem handleRingRead_state (p : Port) (pl : List Byte) (s : State) :
    (handleRingRead p pl s).state = s := by
  unfold handleRingRead
  split
  · rfl
  · dsimp only
    split <;> rfl

theorem Sound.of_state_eq {s t : State} (h : t = s) : Sound s t := h ▸ .refl s

theorem handlerOf_sound (r : Request) (p : Port) (pl : List Byte) (s : State) :
    Sound s (handlerOf r p pl s).state := by
  cases r
  case ping => exact .refl s
  case statusRead => exact .refl s
  case zoneRead => exact .of_state_eq (handleZoneRead_state p pl s)
  case ringRead => exact .of_state_eq (handleRingRead_state p pl s)
  case profileRead => exact .of_state_eq (handleProfileRead_state p pl s)
  case logRead => exact handleLogRead_sound p pl s
  case logRelease => exact handleLogRelease_sound p pl s
  case noticeRead => exact emptyPending_sound p s
  case noticeMap => exact handleNoticeMap_sound p pl s
  case lossAction => exact handleLossAction_sound p pl s
  case changeCancel => exact handleChangeCancel_sound p pl s
  case profileOpen => exact handleProfileOpen_sound p pl s
  case profileWrite => exact handleProfileWrite_sound p pl s
  case profileCommit => exact handleProfileCommit_sound p pl s
  case profileAbandon => exact handleProfileAbandon_sound p pl s
  case restart => exact handleRestart_sound p pl s
  case speedRamp => exact handleSpeedRamp_sound p pl s
  case impressionOn => exact handleImpressionOn_sound p pl s
  case impressionOff => exact handleImpressionOff_sound p pl s
  case solventCharge => exact .ring s _ s.ring.tag
  case jobTag => exact handleJobTag_sound p pl s
  case detectorSet => exact handleDetectorSet_sound p pl s
  case breakClear => exact handleBreakClear_sound p pl s
  case safeClear => exact handleSafeClear_sound p pl s
  case zoneReport => exact handleZoneReport_sound p pl s
  case zoneSetpoint => exact handleZoneSetpoint_sound p pl s
  case exhaustTarget => exact handleExhaustTarget_sound p pl s
  case purgeStart => exact handlePurgeStart_sound p pl s
  case coolDown => exact handleCoolDown_sound p pl s
  case chillReport => exact handleChillReport_sound p pl s
  case chillSetpoint => exact handleChillSetpoint_sound p pl s

theorem takeRequest_sound (r : Request) (p : Port) (pl : List Byte) (s : State) :
    Sound s (takeRequest r (handlerOf r) p pl s) := by
  have h := frameTaken_sound p s
  unfold takeRequest
  dsimp only
  split
  · split
    · exact (h.trans (handlerOf_sound r p pl _)).trans (answer_sound _ _ _ _)
    · exact h.trans (answer_sound _ _ _ _)
  · exact h.trans (answer_sound _ _ _ _)

theorem takeFrame_sound (p : Port) (k : Byte) (pl : List Byte) (s : State) :
    Sound s (takeFrame p k pl s) := by
  unfold takeFrame
  split
  · exact takeRequest_sound _ _ _ _
  · exact (frameTaken_sound p s).trans (answer_sound _ _ _ _)

theorem takeByte_sound (p : Port) (b : Byte) (s : State) : Sound s (takeByte p b s) := by
  unfold takeByte
  split
  · split
    · exact receiverTo_sound _ _ _
    · exact .refl s
  · exact receiverTo_sound _ _ _
  · dsimp only
    split
    · exact failFrame_sound _ _ _
    · split <;> exact receiverTo_sound _ _ _
  · dsimp only
    split <;> exact receiverTo_sound _ _ _
  · exact receiverTo_sound _ _ _
  · split
    · exact takeFrame_sound _ _ _ _
    · exact failFrame_sound _ _ _

theorem takeRx_sound (p : Port) (rx : RxByte) (s : State) : Sound s (takeRx p rx s) := by
  unfold takeRx
  split
  · exact takeByte_sound _ _ _
  · split
    · exact .refl s
    · exact failFrame_sound _ _ _

/-! ### Every command -/

theorem transmission_sound (p : Port) (s : State) :
    Sound s (s.modPort p PortState.endTransmission) := by
  refine .port s p _ fun q => ?_
  unfold PortState.endTransmission PortState.transmit
  split
  · exact ⟨rfl, rfl⟩
  · split <;> exact ⟨rfl, rfl⟩

theorem pulseEnd_sound (p : Port) (s : State) : Sound s (s.modPort p PortState.endPulse) := by
  refine .port s p _ fun q => ?_
  unfold PortState.endPulse
  split <;> exact ⟨rfl, rfl⟩

theorem purgeTimerExpiry_sound {s t : State} (h : execPurgeTimerExpiry s = .next t) : Sound s t := by
  unfold execPurgeTimerExpiry at h
  split at h
  · obtain rfl := Host.Outcome.next.inj h
    exact .refl s
  · split at h <;> obtain rfl := Host.Outcome.next.inj h
    · exact purgeExpiry_sound _ s
    · exact .line s _ rfl .rfl
  · obtain rfl := Host.Outcome.next.inj h
    exact .line s _ rfl .rfl

/-- What a command other than RESET and PWM_PERIOD_START answers keeps envelope and floor duty current, ring and tables
whole. -/
theorem exec_sound {c : Instr} {s t : State} (hc : ∀ l, c ≠ .reset l) (hp : c ≠ .pwmPeriodStart)
    (h : exec c s = .next t) : Sound s t := by
  cases c
  case reset l => exact absurd rfl (hc l)
  case forwardPulse =>
    simp only [exec, execForwardPulse] at h
    have href : Sound s (moveReference encForward s) := .motion s _ rfl rfl rfl
    split at h <;> obtain rfl := Host.Outcome.next.inj h
    · exact href
    · next pr hp => exact href.trans (forward_sound hp)
  case reversePulse =>
    simp only [exec, execReversePulse] at h
    have href : Sound s (moveReference encReverse s) := .motion s _ rfl rfl rfl
    split at h <;> obtain rfl := Host.Outcome.next.inj h
    · exact href
    · exact href.trans (backward_sound _ _)
  case encoderDoubleChange =>
    obtain rfl := Host.Outcome.next.inj h
    exact .motion s _ rfl rfl rfl
  case stallTimerExpiry =>
    simp only [exec, execStallTimerExpiry] at h
    split at h <;> obtain rfl := Host.Outcome.next.inj h
    · exact .refl s
    · exact becomeStill_sound s
  case dwellTimerExpiry =>
    simp only [exec, execDwellTimerExpiry] at h
    split at h <;> obtain rfl := Host.Outcome.next.inj h
    · exact .refl s
    · next hp => exact issueDwell_sound hp
    · exact .motion s _ rfl rfl rfl
  case pwmPeriodStart => exact absurd rfl hp
  case purgeTimerExpiry => exact purgeTimerExpiry_sound h
  case stallGraceExpiry =>
    simp only [exec, execStallGraceExpiry] at h
    split at h <;> obtain rfl := Host.Outcome.next.inj h
    · exact .refl s
    · exact stallGraceEnds_sound s
  case excessTimerExpiry =>
    simp only [exec, execExcessTimerExpiry] at h
    split at h <;> obtain rfl := Host.Outcome.next.inj h
    · exact .refl s
    · exact excessEnds_sound s
  case settleTimerExpiry =>
    simp only [exec, execSettleTimerExpiry] at h
    split at h <;> obtain rfl := Host.Outcome.next.inj h
    · exact .refl s
    · exact (Sound.flightEnded _ _).pass
    · exact .arb s _
  case waitingTimerExpiry key =>
    obtain rfl := Host.Outcome.next.inj h
    exact .waitingEnded _ _ _
  case windowTimerExpiry p =>
    obtain rfl := Host.Outcome.next.inj h
    exact windowExpiry_sound p s
  case gapTimerExpiry p =>
    obtain rfl := Host.Outcome.next.inj h
    unfold gapExpiry
    split
    · exact failFrame_sound _ _ _
    · exact .refl s
  case badFrame p rx =>
    obtain rfl := Host.Outcome.next.inj h
    exact takeRx_sound p rx s
  case unknownKind p k pl =>
    obtain rfl := Host.Outcome.next.inj h
    exact takeFrame_sound p k pl s
  case replyTransmissionEnd p =>
    obtain rfl := Host.Outcome.next.inj h
    exact transmission_sound p s
  case notePulseEnd p =>
    obtain rfl := Host.Outcome.next.inj h
    exact pulseEnd_sound p s
  case estopActivation =>
    simp only [exec, execEstopActivation] at h
    split at h <;> obtain rfl := Host.Outcome.next.inj h
    · exact .refl s
    · exact (Sound.line s { s.line with estopActive := true } rfl .rfl).trans (.safe _ _)
  case estopRelease =>
    obtain rfl := Host.Outcome.next.inj h
    exact .line s _ rfl .rfl
  case detectorLevelChange d l =>
    obtain rfl := Host.Outcome.next.inj h
    exact changeDetector_sound _ _ s
  case byteReceived p rx =>
    obtain rfl := Host.Outcome.next.inj h
    exact takeRx_sound p rx s
  all_goals
    obtain rfl := Host.Outcome.next.inj h
    exact takeRequest_sound _ _ _ s

/-! ### The step -/

/-- The envelope and the floor duty stay current, the ring and the tables stay whole. -/
structure KeepsRun (s t : State) : Prop where
  current : KeepsCurrent s t
  whole : KeepsWhole s t

namespace KeepsRun

theorem of_sound {s t : State} (h : Sound s t) : KeepsRun s t := ⟨h.current, h.intact.whole⟩

theorem trans {s t u : State} (h : KeepsRun s t) (k : KeepsRun t u) : KeepsRun s u :=
  ⟨h.current.trans k.current, h.whole.trans k.whole⟩

theorem of_feeds {s t : State} (h : SameFeeds s t) (henv : t.env = s.env) (hload : t.load = s.load)
    (hring : t.ring = s.ring) (hprof : t.prof = s.prof) : KeepsRun s t :=
  ⟨.of_feeds h henv (by rw [hload]),
    .of_eq (by rw [hring]) (by rw [hring]) (by rw [hprof]) (by rw [hprof])⟩

end KeepsRun

theorem prepared_keepsRun {s u : State} (h : Prepared s u) : KeepsRun s u := by
  obtain ⟨hring, hload, henv, hline, -, -, -, hprof, hports, hmotion, -⟩ := prepared_fields h
  have hlimit : ∀ q, u.lostUnderLimit q = s.lostUnderLimit q := fun q => by
    simp [State.lostUnderLimit, State.port, hports]
  exact .of_feeds
    ⟨by rw [hprof], by rw [hring], by rw [hring], by rw [hring], by rw [hring], by rw [hmotion],
      by rw [hmotion], by rw [hmotion], by rw [hload], by rw [hload], by rw [hload], by rw [hline],
      by rw [hline], hlimit⟩ henv hload hring hprof

theorem tick_keepsRun (s : State) : KeepsRun s (tick s) := by
  refine .of_feeds ⟨rfl, rfl, rfl, rfl, rfl, rfl, rfl, rfl, rfl, rfl, rfl, rfl, .rfl, fun q => ?_⟩
    rfl rfl rfl rfl
  simp [State.lostUnderLimit, PortState.tick]

theorem setPwm_keepsRun (s : State) (x : Pwm) : KeepsRun s (s.setPwm x) :=
  .of_feeds ⟨rfl, rfl, rfl, rfl, rfl, rfl, rfl, rfl, rfl, rfl, rfl, rfl, .rfl, fun _ => rfl⟩
    rfl rfl rfl rfl

theorem exec_keepsRun {c : Instr} {s t : State} (hc : ∀ l, c ≠ .reset l) (h : exec c s = .next t) :
    KeepsRun s t := by
  by_cases hp : c = .pwmPeriodStart
  · subst hp
    obtain rfl := Host.Outcome.next.inj h
    exact setPwm_keepsRun s _
  · exact .of_sound (exec_sound hc hp h)

/-- A step ends in the state after a reset, or keeps what `KeepsRun` keeps. -/
theorem step_keepsRun {s t : State} (h : step s = .next t) :
    (∃ l, KeepsRun (State.afterReset l) t) ∨ KeepsRun s t := by
  rcases step_cases h with ⟨c, u, hu, he⟩ | ⟨-, -, rfl⟩
  · by_cases hc : ∃ l, c = .reset l
    · obtain ⟨l, rfl⟩ := hc
      obtain rfl := Host.Outcome.next.inj he
      exact .inl ⟨l, .of_feeds
        ⟨rfl, rfl, rfl, rfl, rfl, rfl, rfl, rfl, rfl, rfl, rfl, rfl, .rfl, fun _ => rfl⟩
        rfl rfl rfl rfl⟩
    · exact .inr ((prepared_keepsRun hu).trans (exec_keepsRun (fun l hl => hc ⟨l, hl⟩) he))
  · exact .inr (tick_keepsRun s)

/-- Settles O27: every operation that changes a feed of the envelope or of the floor duty ends with both
formed anew; every other one leaves the feeds as they were. -/
theorem stepKeepsEnvelopeAndDutyCurrent : Obligations.StepKeepsEnvelopeAndDutyCurrent := by
  intro s t henv hduty h
  rcases step_keepsRun h with ⟨l, hl⟩ | hs
  · obtain ⟨-, -, -, henv', hduty', -⟩ := resetMeetsInvariants l
    exact ⟨hl.current.env henv', hl.current.duty hduty'⟩
  · exact ⟨hs.current.env henv, hs.current.duty hduty⟩

/-- Settles O28: the log and the list by what every command may do to them, the tables because an item
write keeps the eight zones. -/
theorem stepKeepsListsBounded : Obligations.StepKeepsListsBounded := by
  intro s t h
  refine ⟨step_keeps_logBounded h, step_keeps_pendingBounded h, fun htables => ?_⟩
  rcases step_keepsRun h with ⟨l, hl⟩ | hs
  · obtain ⟨-, -, -, -, -, -, -, -, -, -, htables'⟩ := resetMeetsInvariants l
    exact hl.whole.tables htables'
  · exact hs.whole.tables htables

/-- Settles O30: a step moves or rebuilds the records whole, and every other operation on the ring acts
record by record. -/
theorem stepKeepsRingWhole : Obligations.StepKeepsRingWhole := by
  intro s t hwhole hagree h
  rcases step_keepsRun h with ⟨l, hl⟩ | hs
  · obtain ⟨-, -, -, -, -, -, -, -, hwhole', hagree', -⟩ := resetMeetsInvariants l
    exact hl.whole.ring ⟨hwhole', hagree'⟩
  · exact hs.whole.ring ⟨hwhole, hagree⟩

end Sys2Proof.Machine
end

section
/-! PROOFS. Steps, time and the front of the queue (R28, R29, R34, R56), the reset of every block, the encoder
reference (R30), the PWM stage (R56). -/
namespace Sys2Proof.Machine

/-! ### The step -/

/-- Settles O1, by the definition of a step with a command in the queue. -/
theorem stepRunsFrontCommand : Obligations.StepRunsFrontCommand := by
  intro c rest s h
  rw [step, h]

theorem step_of_empty {s : State} (h : s.pending = []) : step s = idleStep s := by
  rw [step, h]

/-- The one picked among several is one of them, whatever the free value. -/
theorem pickDue_mem (n : Nat) (c : Instr) (cs : List Instr) : pickDue n c cs ∈ c :: cs := by
  unfold pickDue
  have hlt : Config.dueChoice n % (cs.length + 1) < (c :: cs).length :=
    Nat.mod_lt _ (Nat.succ_pos _)
  rw [List.getD_eq_getElem _ _ hlt]
  exact List.getElem_mem hlt

/-! ### What is due -/

theorem mem_whenDue {c d : Instr} {t : Timer} : c ∈ whenDue t d ↔ c = d ∧ t = some 0 := by
  unfold whenDue Timer.due
  split
  · next h => simp_all
  · next h => simp_all

theorem mem_duePeriod {c : Instr} {x : Pwm} :
    c ∈ duePeriod x ↔ c = .pwmPeriodStart ∧ 1000 ≤ x.elapsed := by
  unfold duePeriod Config.pwmPeriod
  split <;> simp_all

theorem mem_dueEntries {c : Instr} {l : List PendingEntry} :
    c ∈ dueEntries l ↔
      ∃ e ∈ l, c = .waitingTimerExpiry e.key ∧ e.status = .queued ∧ e.timer = some 0 := by
  simp only [dueEntries, List.mem_flatMap]
  refine exists_congr fun e => and_congr_right fun _ => ?_
  cases he : e.status
  · simp [mem_whenDue]
  · simp

theorem mem_duePort {c : Instr} {p : Port} {q : PortState} :
    c ∈ duePort p q ↔
      (c = .gapTimerExpiry p ∧ q.gap = some 0) ∨ (c = .replyTransmissionEnd p ∧ q.txTimer = some 0) ∨
        (c = .windowTimerExpiry p ∧ q.window = some 0) ∨ (c = .notePulseEnd p ∧ q.pulse = some 0) := by
  simp only [duePort, List.mem_append, mem_whenDue, or_assoc]

theorem exists_port {P : Port → Prop} : (∃ p, P p) ↔ P .line ∨ P .dryer ∨ P .chill := by
  constructor
  · rintro ⟨p, hp⟩
    cases p
    · exact .inl hp
    · exact .inr (.inl hp)
    · exact .inr (.inr hp)
  · rintro (h | h | h)
    · exact ⟨_, h⟩
    · exact ⟨_, h⟩
    · exact ⟨_, h⟩

theorem mem_dueCommands {c : Instr} {s : State} :
    c ∈ dueCommands s ↔
      (c = .stallTimerExpiry ∧ s.motion.stallTimer = some 0) ∨
      (c = .dwellTimerExpiry ∧ s.motion.dwellTimer = some 0) ∨
      (c = .pwmPeriodStart ∧ 1000 ≤ s.pwm.elapsed) ∨
      (c = .purgeTimerExpiry ∧ s.line.purgeTimer = some 0) ∨
      (c = .stallGraceExpiry ∧ s.line.stallGrace = some 0) ∨
      (c = .excessTimerExpiry ∧ s.line.excess = some 0) ∨
      (c = .settleTimerExpiry ∧ s.arb.settleTimer = some 0) ∨
      (∃ e ∈ s.arb.list,
        c = .waitingTimerExpiry e.key ∧ e.status = .queued ∧ e.timer = some 0) ∨
      ∃ p, c ∈ duePort p (s.port p) := by
  rw [exists_port]
  simp only [dueCommands, List.mem_append, mem_whenDue, mem_duePeriod, mem_dueEntries, or_assoc]
  rfl

/-! ### A microsecond -/

theorem timer_tick_eq (t : Timer) : Timer.tick t = t.map (· - 1) := by cases t <;> rfl

theorem timeBase_tick (x : TimeBase) :
    x.tick.us = x.us + 1 ∧ (x.sub < 999 → x.tick.ms = x.ms ∧ x.tick.sub = x.sub + 1) ∧
      (999 ≤ x.sub → x.tick.ms = x.ms + 1 ∧ x.tick.sub = 0) := by
  unfold TimeBase.tick
  split
  · exact ⟨rfl, fun h => by omega, fun _ => ⟨rfl, rfl⟩⟩
  · exact ⟨rfl, fun _ => ⟨rfl, rfl⟩, fun h => by omega⟩

/-- Settles O2: the queue is empty, so a step takes what is due, and the list of what is due is read off
timer by timer. -/
theorem idleStepTakesExpiryOrMicrosecond : Obligations.IdleStepTakesExpiryOrMicrosecond := by
  intro s hs
  rw [step_of_empty hs]
  refine ⟨fun h => by rw [idleStep, h], fun c h => by rw [idleStep, h], fun c d cs h => ?_, ?_, ?_⟩
  · refine ⟨pickDue s.freeCount c (d :: cs), ?_, by rw [idleStep, h]⟩
    rw [h]
    exact pickDue_mem _ _ _
  · obtain ⟨hus, hsame, hnext⟩ := timeBase_tick s.time
    refine ⟨hus, hsame, hnext, ?_, rfl, ?_, ?_, fun p => ?_, rfl, rfl, rfl, rfl, rfl, rfl, rfl, rfl⟩
    · simp [tick, Motion.tick, timer_tick_eq]
      rfl
    · simp [PhaseUnit.tick, timer_tick_eq]
    · simp [tick, Arbiter.tick, timer_tick_eq]
    · simp [PortState.tick, timer_tick_eq]
  · intro c
    simp only [mem_dueCommands, mem_duePort]

/-! ### Every command completes -/

theorem requestCommand_completes (r : Request) (p : Port) (pl : List Byte) (s : State) :
    ∃ t, exec (requestInstr r p pl) s = .next t := by
  cases r <;> exact ⟨_, rfl⟩

/-- No command faults or is refused: each arm answers a next state in each of its branches. -/
theorem exec_completes (c : Instr) (s : State) : ∃ t, exec c s = .next t := by
  cases c
  case forwardPulse =>
    simp only [exec, execForwardPulse]
    split <;> exact ⟨_, rfl⟩
  case reversePulse =>
    simp only [exec, execReversePulse]
    split <;> exact ⟨_, rfl⟩
  case stallTimerExpiry =>
    simp only [exec, execStallTimerExpiry]
    split <;> exact ⟨_, rfl⟩
  case dwellTimerExpiry =>
    simp only [exec, execDwellTimerExpiry]
    split <;> exact ⟨_, rfl⟩
  case purgeTimerExpiry =>
    simp only [exec, execPurgeTimerExpiry]
    split
    · exact ⟨_, rfl⟩
    · split <;> exact ⟨_, rfl⟩
    · exact ⟨_, rfl⟩
  case stallGraceExpiry =>
    simp only [exec, execStallGraceExpiry]
    split <;> exact ⟨_, rfl⟩
  case excessTimerExpiry =>
    simp only [exec, execExcessTimerExpiry]
    split <;> exact ⟨_, rfl⟩
  case settleTimerExpiry =>
    simp only [exec, execSettleTimerExpiry]
    split <;> exact ⟨_, rfl⟩
  case estopActivation =>
    simp only [exec, execEstopActivation]
    split <;> exact ⟨_, rfl⟩
  all_goals exact ⟨_, rfl⟩

theorem step_completes (s : State) : Safe s := by
  unfold Safe step
  split
  · exact exec_completes _ _
  · unfold idleStep
    split
    · exact ⟨_, rfl⟩
    · exact exec_completes _ _
    · exact exec_completes _ _

/-- Settles O3: no arm faults, and every command but RESET and PWM_PERIOD_START is `Sound`, which leaves
clock, PWM stage and queue alone. -/
theorem everyCommandCompletes : Obligations.EveryCommandCompletes := by
  refine ⟨step_completes, fun c s => ?_⟩
  obtain ⟨t, ht⟩ := exec_completes c s
  refine ⟨t, ht, ?_⟩
  by_cases hreset : ∃ l, c = .reset l
  · obtain ⟨l, rfl⟩ := hreset
    obtain rfl := Host.Outcome.next.inj ht
    exact ⟨rfl, rfl, fun h => absurd rfl (h l)⟩
  · by_cases hpwm : c = .pwmPeriodStart
    · subst hpwm
      obtain rfl := Host.Outcome.next.inj ht
      exact ⟨rfl, rfl, fun _ => ⟨rfl, fun h => absurd rfl h⟩⟩
    · obtain ⟨htime, hp, hpending, hcount⟩ :=
        (exec_sound (fun l hl => hreset ⟨l, hl⟩) hpwm ht).intact.clock
      exact ⟨hpending, hcount, fun _ => ⟨htime, fun _ => hp⟩⟩

/-! ### Reset, encoder, PWM -/

/-- Settles O5: the state after a reset is a literal, read off block by block. -/
theorem resetEveryBlock : Obligations.ResetEveryBlock := by
  intro l s
  refine ⟨_, exec_reset l s, rfl, rfl, rfl, rfl, rfl, rfl, rfl, rfl, rfl, rfl, rfl, rfl, rfl, rfl,
    rfl, rfl, rfl, rfl, rfl, rfl, rfl, rfl, rfl, rfl, rfl, rfl, rfl, rfl, rfl, rfl, rfl, rfl, rfl,
    rfl, rfl, rfl, rfl, rfl, rfl, rfl, rfl, rfl, ?dets, rfl, rfl, rfl, rfl, ?outcomes, rfl, rfl,
    rfl, ?log, ?ports, rfl, rfl, rfl, rfl, rfl⟩
  case dets => exact fun d => by cases d <;> exact ⟨rfl, rfl, rfl⟩
  case outcomes => exact fun p => by cases p <;> rfl
  case log => exact fun p => by cases p <;> exact ⟨rfl, rfl⟩
  case ports =>
    intro p
    have hport : (State.afterReset l).port p = .reset := afterReset_port l p
    exact hport ▸ ⟨rfl, rfl, rfl, rfl, rfl, rfl, rfl, rfl, rfl, rfl, rfl⟩

/-- Settles O7, pair by pair. -/
theorem encoderReference : Obligations.EncoderReference := by
  refine ⟨rfl, rfl, rfl, rfl, fun e => ?_, fun e => ?_, fun s => rfl⟩
  · obtain ⟨a, b⟩ := e
    cases a <;> cases b <;> exact ⟨rfl, rfl⟩
  · obtain ⟨a, b⟩ := e
    cases a <;> cases b <;> decide

theorem exhFloorHigh_iff (s : State) :
    s.exhFloorHigh = true ↔ s.pwm.elapsed < s.pwm.highTime ∨ 1000 ≤ s.pwm.highTime := by
  rw [State.exhFloorHigh, Bool.or_eq_true, decide_eq_true_iff, decide_eq_true_iff]
  rfl

/-- Settles O19: a duty below 256 has a high time below the period, duty 256 the whole period. -/
theorem pwmStage : Obligations.PwmStage := by
  refine ⟨fun s => rfl, fun s k duty hk hd => ?_, fun duty h1 h2 => ?_, fun s k => ⟨?_, ?_⟩⟩
  · rw [exhFloorHigh_iff]
    dsimp only [setPwm_pwm]
    omega
  · omega
  · exact (exhFloorHigh_iff _).mpr (.inr (Nat.le_refl 1000))
  · rw [Bool.eq_false_iff, Ne, exhFloorHigh_iff]
    dsimp only [setPwm_pwm]
    omega

end Sys2Proof.Machine
end

section
/-! PROOFS. The requests as commands: what every accepted frame runs (R167, R168), the entry settings (R9),
LOSS_ACTION (R175), the detector commands (R110, R111), the notices (R176 to R181) and the way of a reply
(R164, R168, R169). -/
namespace Sys2Proof.Machine

/-! ### A frame that carries a request -/

theorem exec_request (r : Request) (p : Port) (pl : List Byte) (s : State) :
    exec (requestInstr r p pl) s = .next (takeRequest r (handlerOf r) p pl s) := by
  cases r <;> rfl

/-- An accepted frame of the right length is answered by its owner. -/
theorem exec_taken {r : Request} {p : Port} {pl : List Byte} (s : State)
    (ha : acceptedOn r p = true) (hl : lengthFits r pl.length = true) :
    exec (requestInstr r p pl) s =
      .next (answer p r.code (handlerOf r p pl (frameTaken p s)).payload
        (handlerOf r p pl (frameTaken p s)).state) := by
  simp [exec_request, takeRequest, ha, hl]

/-- The command answers what the owner answers on the state after the frame's arrival. -/
theorem exec_answers {r : Request} {p : Port} {pl : List Byte} {s t : State} {reply : List Byte}
    (ha : acceptedOn r p = true) (hl : lengthFits r pl.length = true)
    (h : handlerOf r p pl (frameTaken p s) = { state := t, payload := reply }) :
    exec (requestInstr r p pl) s = .next (answer p r.code reply t) := by
  rw [exec_taken s ha hl, h]

/-! ### Fields of a payload -/

theorem bigEndian_one (a : Byte) : bigEndian [a] = a.toNat := by
  simp [bigEndian]

theorem bigEndian_two (a b : Byte) : bigEndian [a, b] = (a ++ b).toNat := by
  simp only [bigEndian, List.foldl, BitVec.toNat_append]
  rw [Nat.zero_mul, Nat.zero_add, Nat.shiftLeft_eq, Nat.mul_comm _ (2 ^ 8),
    ← Nat.two_pow_add_eq_or_of_lt b.isLt]
  omega

@[simp] theorem fieldAt_byte₀ (a : Byte) (l : List Byte) : fieldAt (a :: l) 0 1 = a.toNat :=
  bigEndian_one a

@[simp] theorem fieldAt_byte₁ (a b : Byte) (l : List Byte) : fieldAt (a :: b :: l) 1 1 = b.toNat :=
  bigEndian_one b

@[simp] theorem fieldAt_byte₂ (a b c : Byte) (l : List Byte) :
    fieldAt (a :: b :: c :: l) 2 1 = c.toNat := bigEndian_one c

@[simp] theorem fieldAt_word₀ (a b : Byte) (l : List Byte) :
    fieldAt (a :: b :: l) 0 2 = (a ++ b).toNat := bigEndian_two a b

@[simp] theorem fieldAt_word₁ (a b c : Byte) (l : List Byte) :
    fieldAt (a :: b :: c :: l) 1 2 = (b ++ c).toNat := bigEndian_two b c

theorem fieldAt_lt_256 (pl : List Byte) (off : Nat) : fieldAt pl off 1 < 256 := by
  unfold fieldAt
  cases h : pl.drop off with
  | nil => simp [bigEndian]
  | cons a l =>
    rw [List.take_succ_cons, List.take_zero, bigEndian_one]
    exact a.isLt

@[simp] theorem u8_toNat (a : Byte) : u8 a.toNat = [a] := by simp [u8]

theorem u16_append (a b : Byte) : u16 (a ++ b).toNat = [a, b] := by
  have h := bigEndian_two a b
  simp only [bigEndian, List.foldl, Nat.zero_mul, Nat.zero_add] at h
  have ha := a.isLt
  have hb := b.isLt
  simp only [u16, List.cons.injEq, and_true, ← h]
  constructor <;> apply BitVec.eq_of_toNat_eq <;> simp <;> omega

/-! ### What a pass does where nothing waits -/

theorem arbiterPass_of_empty {s : State} (h : s.arb.list = []) : arbiterPass s = s := by
  unfold arbiterPass
  rw [h]
  split <;> rfl

/-- After a change made known to the load unit and the envelope unit both are current. -/
theorem madeKnown_current (u : State) :
    EnvelopeCurrent (arbiterPass (recompute (setFloorDuty u))) ∧
      DutyCurrent (arbiterPass (recompute (setFloorDuty u))) :=
  ⟨(arbiterPass_current _).env (recompute_envelopeCurrent _),
    (arbiterPass_current _).duty (recompute_dutyCurrent (setFloorDuty_dutyCurrent u))⟩

/-! ### The settings -/

theorem clampNat_charge (n : Nat) : clampNat 0 60000 n = min n 60000 := by
  simp [clampNat]

/-- Settles O56, from the payloads' fields; the one setting with effects in other blocks is LOSS_ACTION,
whose new action is made known to load and envelope unit. -/
theorem settingsAreWritten : Obligations.SettingsAreWritten := by
  refine ⟨fun hi lo s => ?_, fun f hi lo s => ⟨fun hf => ?_, fun hf htag => ?_, fun hbad => ?_⟩,
    fun p a s => ⟨fun hlock => ?_, fun hlock ha => ?_, fun hlock ha => ?_⟩⟩
  · refine exec_answers (r := .solventCharge) rfl rfl ?_
    simp only [handlerOf, handleSolventCharge, fieldAt_word₀, clampNat_charge, codeOnly]
    congr 2
    by_cases h : (hi ++ lo).toNat ≤ 60000
    · simp [h, Result.code]
    · have hne : min (hi ++ lo).toNat 60000 ≠ (hi ++ lo).toNat := by omega
      simp only [h, hne, if_false, Result.code]
  · refine exec_answers (r := .jobTag) rfl rfl ?_
    simp [handlerOf, handleJobTag, hf, Answer.code, codeOnly, Result.code]
  · refine exec_answers (r := .jobTag) rfl rfl ?_
    have htag' : (hi ++ lo).toNat ≠ 0 := by omega
    simp only [handlerOf, handleJobTag, hf, fieldAt_byte₀, fieldAt_word₁, if_neg htag']
    rfl
  · refine exec_answers (r := .jobTag) rfl rfl ?_
    simp only [handlerOf, handleJobTag, fieldAt_byte₀, fieldAt_word₁]
    rcases hbad with hlarge | ⟨rfl, htag⟩
    · split
      · next h => omega
      · next h => omega
      · rfl
    · rw [htag]
      rfl
  · refine exec_answers (r := .lossAction) rfl rfl ?_
    simp only [handlerOf, handleLossAction, hlock, if_true]
    rfl
  · refine exec_answers (r := .lossAction) rfl rfl ?_
    have hnone : lossActionOf a.toNat = none := by
      unfold lossActionOf
      split <;> first | omega | rfl
    simp only [handlerOf, handleLossAction, hlock, fieldAt_byte₀, hnone]
    rfl
  · obtain ⟨x, hx, hcode⟩ : ∃ x, lossActionOf a.toNat = some x ∧ x.code = a.toNat := by
      have hcases : a.toNat = 0 ∨ a.toNat = 1 ∨ a.toNat = 2 := by omega
      rcases hcases with h | h | h <;> rw [h]
      · exact ⟨_, rfl, rfl⟩
      · exact ⟨_, rfl, rfl⟩
      · exact ⟨_, rfl, rfl⟩
    let t := (frameTaken p s).modPort p (fun q => { q with action := x, lock := true })
    obtain ⟨henv, hduty⟩ := madeKnown_current t
    have hkeeps : KeepsPlant t (arbiterPass (recompute (setFloorDuty t))) :=
      KeepsPlant.trans (by simp [KeepsPlant]) (arbiterPass_frame _)
    obtain ⟨-, hmotion, hring, -, -, -, -, -, -, -, -, -, -, -, -, hlink⟩ := hkeeps
    obtain ⟨-, -, -, -, -, -, -, haction, hl, -⟩ := PortState.of_link (hlink p)
    refine ⟨_, exec_answers (r := .lossAction) rfl rfl
      (t := arbiterPass (recompute (setFloorDuty t))) ?_, ?_, ?_, fun q hq => ?_, hduty, henv, hring,
      hmotion, fun hempty => ?_⟩
    · simp only [handlerOf, handleLossAction, hlock, fieldAt_byte₀, hx]
      rw [hcode, u8_toNat]
      rfl
    · rw [haction]
      simpa [t] using hcode
    · rw [hl]
      simp [t]
    · rw [hlink q]
      simp [t, hq]
    · rw [arbiterPass_of_empty (by simpa [t] using hempty)]
      simp [t]

/-! ### The detector commands -/

theorem detectorOf_number (d : Detector) : detectorOf (detectorNumber d) = some d := by
  cases d <;> rfl

theorem detectorOf_eq_none {n : Nat} (h : 3 < n) : detectorOf n = none := by
  unfold detectorOf
  split <;> first | omega | rfl

theorem armedByte_eq_none {n : Nat} (h : 1 < n) : armedByte n = none := by
  unfold armedByte
  split <;> first | omega | rfl

theorem armedByte_of_le {n : Nat} (h : n ≤ 1) : armedByte n = some (n == 1) := by
  rcases (by omega : n = 0 ∨ n = 1) with rfl | rfl <;> rfl

theorem polarityByte_eq_none {n : Nat} (h : 1 < n) : polarityByte n = none := by
  unfold polarityByte
  split <;> first | omega | rfl

theorem polarityByte_of_le {n : Nat} (h : n ≤ 1) :
    polarityByte n = some (if n = 1 then .activeHigh else .activeLow) := by
  rcases (by omega : n = 0 ∨ n = 1) with rfl | rfl <;> rfl

/-- Settles O41: DETECTOR_SET in the order of its tests. -/
theorem detectorCommands : Obligations.DetectorCommands := by
  refine ⟨fun d l s => rfl, fun pl s hlen => ⟨fun hnone => ?_, fun hsome hbad => ?_,
    fun d hsome hd ha hpol => ?_⟩⟩
  · refine exec_answers (r := .detectorSet) rfl (by simp [hlen, lengthFits]) ?_
    simp only [handlerOf, handleDetectorSet, hnone]
    rfl
  · refine exec_answers (r := .detectorSet) rfl (by simp [hlen, lengthFits]) ?_
    obtain ⟨pr, hpr⟩ := Option.ne_none_iff_exists'.mp hsome
    simp only [handlerOf, handleDetectorSet, hpr]
    rcases hbad with h | h | h
    · rw [detectorOf_eq_none h]
      rfl
    · rw [armedByte_eq_none h]
      cases detectorOf (fieldAt pl 0 1) <;> rfl
    · rw [polarityByte_eq_none h]
      cases detectorOf (fieldAt pl 0 1) <;> cases armedByte (fieldAt pl 1 1) <;> rfl
  · refine exec_answers (r := .detectorSet) rfl (by simp [hlen, lengthFits]) ?_
    obtain ⟨pr, hpr⟩ := Option.ne_none_iff_exists'.mp hsome
    simp only [handlerOf, handleDetectorSet, hpr]
    rw [← hd, detectorOf_number, armedByte_of_le ha, polarityByte_of_le hpol]
    rfl

/-! ### Notices -/

theorem noteAfter_pulsed_mapped {x : NoticeSet} {q : PortState} (h : q.mode = .pulsed)
    (hx : x &&& q.map ≠ 0) : (q.noteAfter x).note = true ∧ (q.noteAfter x).pulse = some 20 := by
  have hmapped : (x &&& q.map != 0) = true := bne_iff_ne.mpr hx
  rw [PortState.noteAfter, h]
  dsimp only
  rw [if_pos hmapped]
  exact ⟨rfl, rfl⟩

theorem noteAfter_pulsed_unmapped {x : NoticeSet} {q : PortState} (h : q.mode = .pulsed)
    (hx : x &&& q.map = 0) : q.noteAfter x = q := by
  simp [PortState.noteAfter, h, hx]

theorem noteAfter_latched {x : NoticeSet} {q : PortState} (h : q.mode = .latched) :
    (q.noteAfter x).note = (q.pendingSet &&& q.map != 0) := by
  simp [PortState.noteAfter, h, PortState.latchNote]

theorem raiseAt_of_pending {k : Notice} {p : Port} {s : State}
    (h : k.inSet (s.port p).pendingSet = true) : raiseAt k p s = s := by
  have hport : ∀ q, (raiseAt k p s).port q = s.port q := fun q => by
    unfold raiseAt
    rw [modPort_port]
    split
    · next hq => rw [hq, PortState.raise, if_pos h]
    · rfl
  have hports : (raiseAt k p s).ports = s.ports := PerPort.ext_get hport
  unfold raiseAt State.modPort at *
  rw [setPorts_ports] at hports
  rw [hports]
  rfl

theorem raise_of_new {k : Notice} {q : PortState} (h : k.inSet q.pendingSet = false) :
    q.raise k = PortState.noteAfter k.mask { q with pendingSet := q.pendingSet ||| k.mask } := by
  simp [PortState.raise, h]

theorem inSet_iff (k : Notice) (x : NoticeSet) : k.inSet x = true ↔ k.mask &&& x ≠ 0 := by
  rw [Notice.inSet, bne_iff_ne, BitVec.and_comm]

/-- A raise of a kind that is not pending (R176, R180, R181). -/
theorem raise_new_note {k : Notice} {q : PortState} (h : k.inSet q.pendingSet = false) :
    (q.raise k).pendingSet = q.pendingSet ||| k.mask ∧
      (q.mode = .pulsed → k.inSet q.map = true →
        (q.raise k).note = true ∧ (q.raise k).pulse = some 20) ∧
      (q.mode = .pulsed → k.inSet q.map = false →
        (q.raise k).note = q.note ∧ (q.raise k).pulse = q.pulse) ∧
      (q.mode = .latched → (q.raise k).note = ((q.pendingSet ||| k.mask) &&& q.map != 0)) := by
  rw [raise_of_new h]
  refine ⟨noteAfter_pendingSet _ _, fun hm hk => ?_, fun hm hk => ?_, fun hm => ?_⟩
  · exact noteAfter_pulsed_mapped hm ((inSet_iff _ _).mp hk)
  · have hunmapped : k.mask &&& q.map = 0 := by
      by_contra hne
      exact absurd ((inSet_iff _ _).mpr hne) (by simp [hk])
    rw [noteAfter_pulsed_unmapped (q := { q with pendingSet := q.pendingSet ||| k.mask }) hm hunmapped]
    exact ⟨rfl, rfl⟩
  · exact noteAfter_latched hm

/-- A change of the notice part of one port. -/
theorem modPort_noticesOnly {s : State} {p : Port} {f : PortState → PortState}
    (h : ∀ q, (f q).link = q.link) : NoticesOnly s (s.modPort p f) := by
  refine ⟨rfl, rfl, rfl, rfl, rfl, rfl, rfl, rfl, rfl, rfl, rfl, rfl, rfl, fun q => ?_⟩
  rw [modPort_port]
  split
  · next hq => rw [h, hq]
  · rfl

theorem modPort_eq_of_port {s : State} {p : Port} {f g : PortState → PortState}
    (h : f (s.port p) = g (s.port p)) : s.modPort p f = s.modPort p g := by
  unfold State.modPort
  rw [show f (s.ports.get p) = g (s.ports.get p) from h]

theorem modPort_of_fixed {s : State} {p : Port} {f : PortState → PortState}
    (h : f (s.port p) = s.port p) : s.modPort p f = s := by
  have hports : (s.modPort p f).ports = s.ports := PerPort.ext_get fun q => by
    have hq : (s.modPort p f).port q = s.port q := by
      rw [modPort_port]
      split
      · next hq => rw [hq, h]
      · rfl
    exact hq
  unfold State.modPort at *
  rw [setPorts_ports] at hports
  rw [hports]
  rfl

theorem emptyPending_note (q : PortState) :
    q.emptyPending.pendingSet = q.holding ∧ q.emptyPending.holding = q.holding ∧
      (q.mode = .latched → q.emptyPending.note = (q.holding &&& q.map != 0)) ∧
      (q.mode = .pulsed → q.holding &&& q.map ≠ 0 →
        q.emptyPending.note = true ∧ q.emptyPending.pulse = some 20) ∧
      (q.mode = .pulsed → q.holding &&& q.map = 0 →
        q.emptyPending.note = q.note ∧ q.emptyPending.pulse = q.pulse) := by
  unfold PortState.emptyPending
  refine ⟨noteAfter_pendingSet _ _, noteAfter_holding _ _, fun hm => noteAfter_latched hm,
    fun hm hx => noteAfter_pulsed_mapped hm hx, fun hm hx => ?_⟩
  rw [noteAfter_pulsed_unmapped (q := { q with pendingSet := q.holding }) hm hx]
  exact ⟨rfl, rfl⟩

theorem noticeModeOf_eq_none {n : Nat} (h : 1 < n) : noticeModeOf n = none := by
  unfold noticeModeOf
  split <;> first | omega | rfl

/-- Settles O54, operation by operation on one port. -/
theorem noticesAndNoteLine : Obligations.NoticesAndNoteLine := by
  refine ⟨fun k p s => ⟨raiseAt_of_pending, fun h => ?_⟩, fun p s => ?_,
    fun p hi lo mode s => ⟨fun h => ?_, fun h => ?_, fun h => ?_⟩, fun p s => ⟨fun h => ?_,
      fun h hm => ?_⟩⟩
  · have hport : (raiseAt k p s).port p = (s.port p).raise k := by simp [raiseAt]
    refine ⟨raiseAt_frame k p s, ?_⟩
    rw [hport]
    exact raise_new_note h
  · have hport : ((frameTaken p s).modPort p PortState.emptyPending).port p =
        ((frameTaken p s).port p).emptyPending := modPort_port_same _ _ _
    refine ⟨_, exec_answers (r := .noticeRead) rfl rfl rfl, modPort_noticesOnly emptyPending_link,
      fun x hx => modPort_port_other _ _ hx, ?_⟩
    rw [hport]
    exact emptyPending_note _
  · refine exec_answers (r := .noticeMap) rfl rfl ?_
    simp only [handlerOf, handleNoticeMap, fieldAt_byte₂, noticeModeOf_eq_none h]
    rfl
  · refine exec_answers (r := .noticeMap) rfl rfl ?_
    subst h
    simp only [handlerOf, handleNoticeMap, fieldAt_byte₂, fieldAt_word₀, BitVec.ofNat_toNat,
      BitVec.setWidth_eq, u16_append]
    rfl
  · refine exec_answers (r := .noticeMap) rfl rfl ?_
    subst h
    simp only [handlerOf, handleNoticeMap, fieldAt_byte₂, fieldAt_word₀, BitVec.ofNat_toNat,
      BitVec.setWidth_eq, u16_append]
    rfl
  · refine congrArg _ (modPort_of_fixed ?_)
    simp [PortState.endPulse, h]
  · obtain ⟨n, hn⟩ := Option.isSome_iff_exists.mp h
    refine congrArg _ (modPort_eq_of_port ?_)
    simp [PortState.endPulse, hn, hm]

end Sys2Proof.Machine
end

section
/-! PROOFS. The way of a reply (R164, R168, R169), the receiver byte by byte (R165, R166, R184) and the frames
that take no request (R167, R170). -/
namespace Sys2Proof.Machine

/-! ### Bytes on the line -/

theorem bitLevel_eq_high {b : Bool} : bitLevel b = .high ↔ b = true := by cases b <;> simp [bitLevel]

/-- The number the levels of a number's low bits spell. -/
theorem bitsValue_levels (n x : Nat) :
    bitsValue ((List.range n).map (fun i => bitLevel (x.testBit i))) = x % 2 ^ n := by
  induction n generalizing x with
  | zero => simp [bitsValue, Nat.mod_one]
  | succ n ih =>
    have htail : (fun i => bitLevel (x.testBit i)) ∘ Nat.succ =
        fun i => bitLevel ((x / 2).testBit i) := by
      funext i
      simp [Nat.testBit_succ]
    have hhead : (if bitLevel (x.testBit 0) = .high then 1 else 0) = x % 2 := by
      simp only [bitLevel_eq_high, Nat.testBit_zero, decide_eq_true_eq]
      split <;> omega
    rw [List.range_succ_eq_map, List.map_cons, List.map_map, htail, bitsValue, List.foldr_cons,
      hhead, Nat.pow_succ', Nat.mod_mul]
    exact congrArg (fun m => x % 2 + 2 * m) (ih (x / 2))

theorem byteLevels_eq (b : Byte) :
    byteLevels b =
      .low :: (List.range 8).map (fun i => bitLevel (b.toNat.testBit i)) ++ [.high] := rfl

theorem byteLevels_length (b : Byte) : (byteLevels b).length = 10 := by simp [byteLevels]

theorem rxOfLevels_byteLevels (b : Byte) : rxOfLevels (byteLevels b) = .data b := by
  have hstop : (byteLevels b).getD 9 .high = .high := rfl
  have hdata : ((byteLevels b).drop 1).take 8 =
      (List.range 8).map (fun i => bitLevel (b.toNat.testBit i)) := rfl
  rw [rxOfLevels, hstop, if_neg (by decide), hdata, bitsValue_levels,
    Nat.mod_eq_of_lt b.isLt, BitVec.ofNat_toNat, BitVec.setWidth_eq]

theorem byteLevels_bit (b : Byte) :
    ∀ i < 8, (byteLevels b)[i + 1]? = some (if b.getLsbD i then .high else .low) := by
  intro i hi
  rw [byteLevels, List.cons_append, List.getElem?_cons_succ, List.getElem?_append_left (by simpa),
    List.getElem?_map, List.getElem?_range hi]
  rfl

/-- The element at a place of a flattened list of pieces of one length. -/
theorem flatMap_getElem? {α β : Type} {n : Nat} {f : α → List β} (hf : ∀ a, (f a).length = n)
    (hn : 0 < n) (l : List α) (i : Nat) :
    (l.flatMap f)[i]? = (l[i / n]?).bind (fun a => (f a)[i % n]?) := by
  induction l generalizing i with
  | nil => simp
  | cons a l ih =>
    rw [List.flatMap_cons]
    by_cases hi : i < n
    · rw [List.getElem?_append_left (by rwa [hf]), Nat.div_eq_of_lt hi, Nat.mod_eq_of_lt hi]
      rfl
    · have hle : n ≤ i := Nat.le_of_not_lt hi
      obtain ⟨k, rfl⟩ := Nat.exists_eq_add_of_le hle
      rw [List.getElem?_append_right (by rw [hf]; exact hle), hf, Nat.add_sub_cancel_left, ih,
        Nat.add_div_left _ hn, Nat.add_mod_left, List.getElem?_cons_succ]

/-! ### The transmitter -/

theorem replyTime_eq (k : Nat) :
    replyTime k = ((k + 5) * 10 * 1000000 + 230399) / 230400 := by
  have h : (k + 5) * 10 * 1000000 + 230400 - 1 = (k + 5) * 10 * 1000000 + 230399 := by omega
  rw [replyTime, ceilDiv, h]

theorem txd_of_idle {q : PortState} (h : q.tx = none) : q.txd = .high := by
  simp [PortState.txd, h]

theorem txd_of_sending {q : PortState} {r : Reply} {left : Nat} (h : q.tx = some r)
    (ht : q.txTimer = some left) :
    q.txd = r.levels.getD (bitAt (replyTime r.payload.length - left)) .high := by
  simp only [PortState.txd, h, ht]

theorem reply_level {r : Reply} {b : Byte} {n : Nat} (h : r.frame[n / 10]? = some b) :
    (byteLevels b)[n % 10]? = some (r.levels.getD n .high) := by
  have hpiece := flatMap_getElem? byteLevels_length (by decide) r.frame n
  rw [h] at hpiece
  have hlt : n % 10 < (byteLevels b).length := by
    rw [byteLevels_length]
    omega
  simp only [Option.bind_some] at hpiece
  rw [List.getElem?_eq_getElem hlt] at hpiece ⊢
  rw [List.getD_eq_getElem?_getD]
  exact congrArg some (by rw [show r.levels[n]? = _ from hpiece]; rfl)

theorem reply_level_after {r : Reply} {n : Nat} (h : r.frame.length ≤ n / 10) :
    r.levels.getD n .high = .high := by
  have hpiece := flatMap_getElem? byteLevels_length (by decide) r.frame n
  rw [List.getElem?_eq_none h] at hpiece
  rw [List.getD_eq_getElem?_getD, show r.levels[n]? = none from hpiece]
  rfl

/-- The microseconds a reply takes are its bit times, rounded up. -/
theorem replyTime_bounds (k : Nat) :
    (k + 5) * 10 * 1000000 ≤ replyTime k * 230400 ∧
      replyTime k * 230400 < (k + 5) * 10 * 1000000 + 230400 := by
  rw [replyTime_eq]
  omega

theorem answer_of_idle {p : Port} {s : State} (k : Byte) (pl : List Byte)
    (h : (s.port p).tx = none) :
    answer p k pl s = s.modPort p (fun q =>
      { q with tx := some { kind := k ||| 0x80, payload := pl }, txTimer := some (replyTime pl.length) }) :=
  modPort_eq_of_port (by simp [PortState.sendReply, h, PortState.transmit, replyTo])

theorem answer_of_busy {p : Port} {s : State} (k : Byte) (pl : List Byte)
    (h : (s.port p).tx ≠ none) :
    answer p k pl s =
      s.modPort p (fun q => { q with waiting := some { kind := k ||| 0x80, payload := pl } }) := by
  obtain ⟨x, hx⟩ := Option.ne_none_iff_exists'.mp h
  exact modPort_eq_of_port (by simp [PortState.sendReply, hx, replyTo])

/-- Settles O53: the line bit by bit from the flattened frame, the transmitter by its two states. -/
theorem replyTransmission : Obligations.ReplyTransmission := by
  refine ⟨fun b => ⟨byteLevels_length b, rfl, byteLevels_bit b, rfl, rxOfLevels_byteLevels b⟩,
    fun l h => ?_, fun l s => ⟨_, exec_reset l s, fun p => ?_⟩,
    fun q => ⟨txd_of_idle, fun r left hr hleft => ?_⟩,
    fun p kind pl s => ⟨fun h => ?_, answer_of_busy kind pl, fun w x hx hw => ?_, fun hw => ?_⟩⟩
  · rw [rxOfLevels, List.getD_eq_getElem?_getD, h]
    rfl
  · cases p <;> rfl
  · rw [txd_of_sending hr hleft, replyTime_eq]
    exact ⟨fun b => reply_level, reply_level_after⟩
  · exact ⟨_, answer_of_idle kind pl h, replyTime_bounds _⟩
  · refine ⟨_, congrArg _ (modPort_eq_of_port ?_), replyTime_bounds w.payload.length⟩
    simp [PortState.endTransmission, hx, hw, PortState.transmit]
  · refine congrArg _ (modPort_eq_of_port ?_)
    cases hx : (s.port p).tx with
    | none => simp [PortState.endTransmission, hx]
    | some x => simp [PortState.endTransmission, hx, hw]

/-! ### The receiver -/

/-- Two writes to one port are one. -/
theorem modPort_modPort (s : State) (p : Port) (f g : PortState → PortState) :
    (s.modPort p f).modPort p g = s.modPort p (g ∘ f) := by
  have hports : ((s.modPort p f).modPort p g).ports = (s.modPort p (g ∘ f)).ports :=
    PerPort.ext_get fun q => by
      have hq : ((s.modPort p f).modPort p g).port q = (s.modPort p (g ∘ f)).port q := by
        simp only [modPort_port, if_true]
        split <;> rfl
      exact hq
  unfold State.modPort at *
  simp only [setPorts_ports] at hports
  simp only [setPorts_ports, hports]
  rfl

theorem receiverTo_receiverTo (a b : Receiver) (p : Port) (s : State) :
    receiverTo a p (receiverTo b p s) = receiverTo a p s := modPort_modPort _ _ _ _

theorem receiverIdle_receiverTo (a : Receiver) (p : Port) (s : State) :
    receiverIdle p (receiverTo a p s) = receiverIdle p s := modPort_modPort _ _ _ _

/-- A frame taken does not depend on where the receiver stood. -/
theorem frameTaken_receiverTo (a : Receiver) (p : Port) (s : State) :
    frameTaken p (receiverTo a p s) = frameTaken p s := by
  rw [frameTaken, receiverIdle_receiverTo, frameTaken]

theorem takeFrame_receiverTo (a : Receiver) (p : Port) (k : Byte) (pl : List Byte) (s : State) :
    takeFrame p k pl (receiverTo a p s) = takeFrame p k pl s := by
  unfold takeFrame takeRequest takeUnknown
  simp only [frameTaken_receiverTo]

@[simp] theorem receiverTo_rx (a : Receiver) (p : Port) (s : State) :
    ((receiverTo a p s).port p).rx = a := by simp [receiverTo]

theorem exec_byte (p : Port) (b : Byte) (s : State) :
    exec (.byteReceived p (.data b)) s = .next (takeByte p b s) := rfl

theorem execAll_bytesOn_cons (p : Port) (b : Byte) (l : List Byte) (s : State) :
    execAll (bytesOn p (b :: l)) s = execAll (bytesOn p l) (takeByte p b s) := rfl

section
variable {p : Port} {s : State}

theorem takeByte_sync (h : (s.port p).rx = .hunt) :
    takeByte p 0xA5 s = receiverTo (.kind crcInit) p s := by
  simp [takeByte, h]

theorem takeByte_kind (k : Byte) (crc : Word16) :
    takeByte p k (receiverTo (.kind crc) p s) = receiverTo (.length k (crcByte crc k)) p s := by
  simp [takeByte, receiverTo_receiverTo]

theorem takeByte_length_zero (k : Byte) (crc : Word16) :
    takeByte p 0 (receiverTo (.length k crc) p s) =
      receiverTo (.check k [] (crcByte crc 0) none) p s := by
  simp [takeByte, receiverTo_receiverTo]

theorem takeByte_length {k b : Byte} (crc : Word16) (h0 : b.toNat ≠ 0) (h : b.toNat ≤ 240) :
    takeByte p b (receiverTo (.length k crc) p s) =
      receiverTo (.payload k b.toNat [] (crcByte crc b)) p s := by
  have hmax : ¬Config.payloadMax < b.toNat := Nat.not_lt.mpr h
  simp only [takeByte, receiverTo_rx, if_neg hmax, if_neg h0, receiverTo_receiverTo]

/-- A payload byte by byte, to the check bytes. -/
theorem execAll_payload {k : Byte} {n : Nat} {pl : List Byte} {got : List Byte} {crc : Word16}
    {rest : List Byte} (hpl : pl ≠ []) (hn : got.length + pl.length = n) :
    execAll (bytesOn p (pl ++ rest)) (receiverTo (.payload k n got crc) p s) =
      execAll (bytesOn p rest) (receiverTo (.check k (got ++ pl) (pl.foldl crcByte crc) none) p s) := by
  induction pl generalizing got crc with
  | nil => exact absurd rfl hpl
  | cons b l ih =>
    rw [List.cons_append, execAll_bytesOn_cons]
    by_cases hl : l = []
    · subst hl
      have hfull : n ≤ (got ++ [b]).length := by simp at hn ⊢; omega
      simp only [takeByte, receiverTo_rx, if_pos hfull, receiverTo_receiverTo, List.nil_append,
        List.foldl]
    · have hmore : ¬n ≤ (got ++ [b]).length := by
        have := List.length_pos_of_ne_nil hl
        simp at hn ⊢
        omega
      have hstep : takeByte p b (receiverTo (.payload k n got crc) p s) =
          receiverTo (.payload k n (got ++ [b]) (crcByte crc b)) p s := by
        simp only [takeByte, receiverTo_rx, if_neg hmore, receiverTo_receiverTo]
      rw [hstep, ih hl (by simp at hn ⊢; omega)]
      simp

theorem takeByte_check_high (k : Byte) (pl : List Byte) (crc : Word16) (hi : Byte) :
    takeByte p hi (receiverTo (.check k pl crc none) p s) =
      receiverTo (.check k pl crc (some hi)) p s := by
  simp [takeByte, receiverTo_receiverTo]

theorem takeByte_check_low {k : Byte} {pl : List Byte} {crc : Word16} {hi lo : Byte}
    (h : hi ++ lo = crc) :
    takeByte p lo (receiverTo (.check k pl crc (some hi)) p s) = takeFrame p k pl s := by
  simp [takeByte, h, takeFrame_receiverTo]

end

theorem crc_halves (crc : Word16) : crc.extractLsb' 8 8 ++ crc.extractLsb' 0 8 = crc := by
  refine BitVec.eq_of_getLsbD_eq fun i hi => ?_
  rw [BitVec.getLsbD_append, BitVec.getLsbD_extractLsb', BitVec.getLsbD_extractLsb']
  by_cases hlow : i < 8
  · simp [hlow]
  · have hhigh : i - 8 < 8 := by omega
    have hplace : 8 + (i - 8) = i := by omega
    simp [hlow, hhigh, hplace]

theorem exec_frameInstr (p : Port) (kind : Byte) (pl : List Byte) (s : State) :
    exec (frameInstr p kind pl) s = .next (takeFrame p kind pl s) := by
  unfold frameInstr
  cases h : requestOf kind with
  | none => rfl
  | some r =>
    rw [takeFrame, h]
    exact exec_request r p pl s

theorem execAll_check {p : Port} {s : State} {k : Byte} {pl : List Byte} {crc : Word16} :
    execAll (bytesOn p [crc.extractLsb' 8 8, crc.extractLsb' 0 8])
      (receiverTo (.check k pl crc none) p s) = .next (takeFrame p k pl s) := by
  rw [execAll_bytesOn_cons, takeByte_check_high, execAll_bytesOn_cons,
    takeByte_check_low (crc_halves crc)]
  rfl

/-- Settles O51: the receiver's path through a frame, its length zero or not. -/
theorem receivedFrameIsCommand : Obligations.ReceivedFrameIsCommand := by
  intro p kind pl s hrx hlen
  rw [exec_frameInstr, frameBytes, List.cons_append, execAll_bytesOn_cons, takeByte_sync hrx,
    List.cons_append, execAll_bytesOn_cons, takeByte_kind, List.cons_append, execAll_bytesOn_cons]
  by_cases hpl : pl = []
  · subst hpl
    exact (congrArg _ (takeByte_length_zero _ _)).trans execAll_check
  · have hnat : (BitVec.ofNat 8 pl.length).toNat = pl.length := by
      rw [BitVec.toNat_ofNat]
      omega
    have hpos := List.length_pos_of_ne_nil hpl
    rw [takeByte_length _ (by omega) (by omega), execAll_payload hpl (by simp [hnat]), List.nil_append]
    exact execAll_check

/-! ### Frames that fail -/

section
variable {p : Port} {s : State}

theorem framingError_outside (h : (s.port p).rx = .hunt) :
    exec (.byteReceived p .framingError) s = .next s := by
  simp [exec, execByteReceived, takeRx, h]

theorem framingError_inside (h : (s.port p).rx ≠ .hunt) :
    exec (.byteReceived p .framingError) s = .next (failFrame p (s.port p).rx.answerable s) := by
  simp [exec, execByteReceived, takeRx, h]

theorem gapExpiry_running (h : (s.port p).gap.isSome) :
    exec (.gapTimerExpiry p) s = .next (failFrame p (s.port p).rx.answerable s) := by
  obtain ⟨n, hn⟩ := Option.isSome_iff_exists.mp h
  simp [exec, execGapTimerExpiry, gapExpiry, hn]

theorem gapExpiry_stopped (h : (s.port p).gap = none) : exec (.gapTimerExpiry p) s = .next s := by
  simp [exec, execGapTimerExpiry, gapExpiry, h]

end

theorem requestOf_eq_none {kind : Byte} (h : ∀ r : Request, r.code ≠ kind) : requestOf kind = none := by
  simp only [requestOf, List.find?_eq_none, beq_iff_eq]
  exact fun r _ => h r

/-- Settles O52: the receiver's branches one by one, then the two refusals before a request's owner. -/
theorem framesThatTakeNoRequest : Obligations.FramesThatTakeNoRequest := by
  refine ⟨fun p x s => rfl, fun p b s hrx => ⟨framingError_outside hrx, fun hb => ?_, ?_⟩,
    fun p s => ⟨fun hrx => ?_, fun k hrx => ?_, fun k crc b hrx hb => ?_,
      fun k pl crc hi b hrx hne => ?_, gapExpiry_stopped⟩, fun p kind pl s h => ?_,
    fun r p pl s => ⟨fun ha => ?_, fun ha hl => ?_⟩⟩
  · rw [exec_byte, takeByte, hrx]
    simp only [if_neg hb]
  · rw [exec_byte, takeByte_sync hrx]
    rfl
  · have hnone : (s.port p).rx ≠ .hunt ∧ (s.port p).rx.answerable = none := by
      rcases hrx with ⟨crc, h⟩ | ⟨k, crc, h⟩ <;> rw [h] <;> exact ⟨by simp, rfl⟩
    refine ⟨?_, fun hgap => ?_⟩
    · rw [framingError_inside hnone.1, hnone.2]
      rfl
    · rw [gapExpiry_running hgap, hnone.2]
      rfl
  · have hsome : (s.port p).rx ≠ .hunt ∧ (s.port p).rx.answerable = some k := by
      rcases hrx with ⟨n, got, crc, h⟩ | ⟨pl, crc, hi, h⟩ <;> rw [h] <;> exact ⟨by simp, rfl⟩
    refine ⟨?_, fun hgap => ?_⟩
    · rw [framingError_inside hsome.1, hsome.2]
      rfl
    · rw [gapExpiry_running hgap, hsome.2]
      rfl
  · have hmax : Config.payloadMax < b.toNat := hb
    rw [exec_byte, takeByte, hrx]
    simp only [if_pos hmax]
    rfl
  · rw [exec_byte, takeByte, hrx]
    simp only [if_neg hne]
    rfl
  · have htake : exec (.unknownKind p kind pl) s = .next (takeFrame p kind pl s) := rfl
    rw [htake, takeFrame, requestOf_eq_none h]
    rfl
  · simp [exec_request, takeRequest, ha, codeOnly, Result.code]
  · simp [exec_request, takeRequest, ha, hl, codeOnly, Result.code]

end Sys2Proof.Machine
end

section
/-! PROOFS. The bytes a reply carries against the layouts of R183 and R186 to R189, the reads (R26, R27, R171)
and the log requests (R154, R160). -/
namespace Sys2Proof.Machine

/-! ### Numbers, flags and absent fields (R183) -/

theorem u8_eq (n : Nat) : u8 n = be 1 n := by simp [u8, be]

theorem u16_eq (n : Nat) : u16 n = be 2 n := by simp [u16, be]

theorem u24_eq (n : Nat) : u24 n = be 3 n := by simp [u24, u16, be]

theorem u32_eq (n : Nat) : u32 n = be 4 n := by simp [u32, u24, u16, be]

theorem i16_eq (v : Int) : i16 v = beInt v := u16_eq _

theorem optTemp_eq (t : Option Int) : optTemp t = beTemp t := by
  cases t with
  | none => rfl
  | some v => exact i16_eq v

theorem optPlace_eq (n : Option Nat) : optPlace n = bePlace n := by
  cases n with
  | none => rfl
  | some v => exact u8_eq v

theorem flag_eq (b : Bool) (i : Nat) : flag b i = b.toNat * 2 ^ i := by cases b <;> simp [flag]

theorem bit_eq (b : Bool) : (if b then 1 else 0) = b.toNat := by cases b <;> rfl

@[simp] theorem be_length (k n : Nat) : (be k n).length = k := by
  induction k with
  | zero => rfl
  | succ k ih => simp [be, ih]

@[simp] theorem beInt_length (v : Int) : (beInt v).length = 2 := be_length _ _

@[simp] theorem beTemp_length (t : Option Int) : (beTemp t).length = 2 := by
  cases t with
  | none => rfl
  | some v => exact beInt_length v

@[simp] theorem bePlace_length (n : Option Nat) : (bePlace n).length = 1 := by
  cases n with
  | none => rfl
  | some v => exact be_length _ _

/-! ### Records -/

theorem flagByte_record (a b : Bool) :
    flagByte [a, false, false, false, b] = be 1 (flag a 0 + flag b 4) := by
  rw [flagByte, u8_eq]
  congr 1
  simp only [List.foldr, bit_eq, flag_eq, Bool.toNat_false]
  omega

theorem segRecord_bytes (r : SegRecord) : r.bytes = segmentLayout r := by
  simp only [SegRecord.bytes, segmentLayout, u8_eq, u16_eq, optTemp_eq, flagByte_record]

theorem segmentLayout_length (r : SegRecord) : (segmentLayout r).length = 12 := by
  simp [segmentLayout]

theorem flagByte_exit (a b c d e : Bool) :
    flagByte [a, b, c, d, e] =
      be 1 (flag a 0 + flag b 1 + flag c 2 + flag d 3 + flag e 4) := by
  rw [flagByte, u8_eq]
  congr 1
  simp only [List.foldr, bit_eq, flag_eq]
  omega

theorem flagByte_one (a : Bool) : flagByte [a] = be 1 (flag a 0) := by
  rw [flagByte, u8_eq]
  rfl

theorem be_zero (k : Nat) : be k 0 = List.replicate k 0 := by
  induction k with
  | zero => rfl
  | succ k ih => simp [be, ih, List.replicate_succ]

/-- A record's fields, padded with zeros to 13 bytes (R187). -/
theorem take_padded {l : List Byte} {k : Nat} (h : l.length + k = 13) :
    (l ++ List.replicate 13 0).take 13 = l ++ be k 0 := by
  rw [be_zero, List.take_append, List.take_of_length_le (by omega), List.take_replicate]
  congr 2
  omega

theorem logBody_padded (b : LogBody) : (b.bytes ++ List.replicate 13 0).take 13 = logLayout b := by
  cases b <;>
    simp only [LogBody.bytes, logLayout, u8_eq, u16_eq, i16_eq, flagByte_exit, flagByte_one]
  case exit => exact (take_padded (k := 0) (by simp)).trans (by simp [be])
  case phase => exact (take_padded (k := 6) (by simp)).trans (by simp [be])
  case webBreak => exact (take_padded (k := 7) (by simp)).trans (by simp [be])
  case runMark => exact (take_padded (k := 9) (by simp)).trans (by simp [be])
  case filled => exact (take_padded (k := 9) (by simp)).trans (by simp [be])
  case trip => exact (take_padded (k := 8) (by simp)).trans (by simp [be])
  case port => exact (take_padded (k := 8) (by simp)).trans (by simp [be])
  case profile => exact (take_padded (k := 8) (by simp)).trans (by simp [be])
  case released => exact (take_padded (k := 8) (by simp)).trans (by simp [be])
  case restart => exact (take_padded (k := 7) (by simp)).trans (by simp [be])

theorem logRecord_bytes (r : LogRecord) : r.bytes = logLayout r.body ++ be 3 r.stamp.toNat := by
  rw [LogRecord.bytes, logBody_padded, u24_eq]

/-! ### The status payload (R189) -/

theorem flagByte_status (a b c d e f g h : Bool) :
    flagByte [a, b, c, d, e, f, g, h] =
      be 1 (flag a 0 + flag b 1 + flag c 2 + flag d 3 + flag e 4 + flag f 5 + flag g 6 + flag h 7) := by
  rw [flagByte, u8_eq]
  congr 1
  simp only [List.foldr, bit_eq, flag_eq]
  omega

theorem flagByte_detector (a b c d : Bool) :
    flagByte [a, b, c, d] = be 1 (flag a 0 + flag b 1 + flag c 2 + flag d 3) := by
  rw [flagByte, u8_eq]
  congr 1
  simp only [List.foldr, bit_eq, flag_eq]
  omega

theorem detectorBytes_eq (e : DetectorEntry) : detectorBytes e = detectorLayout e := by
  obtain ⟨cfg, armed, latch, level⟩ := e
  unfold detectorBytes detectorLayout
  rw [flagByte_detector, optPlace_eq]
  cases cfg with
  | none => simp [DetectorEntry.signal, bePlace, flag]
  | some c =>
    obtain ⟨position, polarity⟩ := c
    cases polarity <;> cases level <;> rfl

theorem detectorLayout_length (e : DetectorEntry) : (detectorLayout e).length = 2 := by
  unfold detectorLayout
  split <;> simp

theorem runRepeats_eq (r : Option RunCount) :
    (match r with | some r => r.repeats | none => false) = r.any (·.repeats) := by
  cases r <;> rfl

theorem runCurrent_eq (r : Option RunCount) :
    (match r with | some r => r.current | none => 0) = (r.map (·.current)).getD 0 := by
  cases r <;> rfl

theorem actionByte_eq (q : PortState) :
    q.action.code + (if q.lock then 128 else 0) = q.action.code + flag q.lock 7 := by
  cases q.lock <;> rfl

theorem flightBytes_none : flightBytes none = [0x00, 0x00, 0xFF] ++ be 6 0 := rfl

theorem flightBytes_some (c : InFlight) :
    flightBytes (some c) =
      be 1 (portCode (keyOwner c.key)) ++ be 1 (keyKindCode c.key) ++ bePlace (keyZone c.key) ++
        be 2 c.arrival.toNat ++ beInt c.value ++ beInt c.granted := by
  simp only [flightBytes, u8_eq, u16_eq, i16_eq, optPlace_eq]

theorem outcomeBytes_none : outcomeBytes none = [0x00, 0x00, 0xFF] ++ be 4 0 := rfl

theorem outcomeBytes_some (o : ChangeOutcome) :
    outcomeBytes (some o) =
      be 1 o.reason.code ++ be 1 (keyKindCode o.key) ++ bePlace (keyZone o.key) ++
        be 2 o.arrival.toNat ++ beInt o.value := by
  simp only [outcomeBytes, u8_eq, u16_eq, i16_eq, optPlace_eq]

theorem flightBytes_length (f : Option InFlight) : (flightBytes f).length = 9 := by
  cases f with
  | none => rfl
  | some c => simp [flightBytes_some]

theorem outcomeBytes_length (o : Option ChangeOutcome) : (outcomeBytes o).length = 7 := by
  cases o with
  | none => rfl
  | some o => simp [outcomeBytes_some]

theorem statusHead_eq (s : State) :
    statusHead s =
      [0x00] ++ be 1 s.line.phase.code ++ be 1 s.line.cause.code ++
        be 1 (flag (s.line.ready == .holds) 0 + flag s.line.heatInhibit 1 + flag s.line.permit 2 +
          flag s.line.estopActive 3 + flag (s.motion.state == .moving) 4 + flag s.env.underchill 5 +
          flag (s.line.run.any (·.repeats)) 6 + flag s.prof.committed.isSome 7) ++
        be 3 s.time.ms.toNat ++ be 4 s.motion.tStep ++ be 2 s.motion.vMeas ++ be 2 s.env.ceiling ++
        be 1 s.env.limiter.code ++ beTemp s.env.tIn ++ beTemp s.env.predicted := by
  have h := runRepeats_eq s.line.run
  simp only [statusHead, flagByte_status, u8_eq, u16_eq, u24_eq, u32_eq, optTemp_eq, ← h]
  rfl

theorem statusGrants_eq (s : State) :
    statusGrants s =
      be 2 s.line.speedGrant ++ be 2 s.line.exhaust ++ be 2 s.load.flow ++ be 2 s.load.fReq ++
        be 2 s.load.peak ++ be 1 s.load.peakZone ++ be 1 s.load.tripCount ++ be 2 s.load.baseDuty ++
        be 2 s.load.floorDuty ++ be 3 s.line.purgeVolume ++ be 1 s.line.fill ++ be 1 s.line.drain ++
        be 3 ((s.line.run.map (·.current)).getD 0) ++ be 2 s.line.mark := by
  have h := runCurrent_eq s.line.run
  simp only [statusGrants, u8_eq, u16_eq, u24_eq, ← h] <;> rfl

theorem statusDetectors_eq (p : Port) (s : State) :
    statusDetectors p s =
      detectorLayout (s.det .brk0) ++ detectorLayout (s.det .brk1) ++
        detectorLayout (s.det .brk2) ++ detectorLayout (s.det .brk3) ++ bePlace s.brk.pb ++
        be 1 (s.port .line).live.code ++ be 1 (s.port .dryer).live.code ++
        be 1 (s.port .chill).live.code ++ be 1 ((s.port p).action.code + flag (s.port p).lock 7) ++
        be 1 s.prof.code.code ++ be 1 (optPortCode s.prof.holder) := by
  simp only [statusDetectors, detectorBytes_eq, u8_eq, optPlace_eq, actionByte_eq]
  rfl

theorem heldCount_eq (l : List PendingEntry) : heldCount l = l.countP (fun e => e.status == .held) :=
  (List.countP_eq_length_filter ..).symm

theorem statusPayload_eq (p : Port) (s : State) : statusPayload p s = statusLayout p s := by
  rw [statusPayload, statusHead_eq, statusGrants_eq, statusDetectors_eq, statusArbiter, statusLog,
    heldCount_eq]
  unfold statusLayout
  generalize s.arb.inFlight = f
  generalize s.arb.outcomes.get p = o
  simp only [u8_eq, u16_eq, List.append_assoc]
  cases f with
  | none =>
    cases o with
    | none => rw [flightBytes_none, outcomeBytes_none]
    | some o => simp only [flightBytes_none, outcomeBytes_some, List.append_assoc]
  | some c =>
    cases o with
    | none => simp only [flightBytes_some, outcomeBytes_none, List.append_assoc]
    | some o => simp only [flightBytes_some, outcomeBytes_some, List.append_assoc]

theorem statusPayload_length (p : Port) (s : State) : (statusPayload p s).length = 87 := by
  simp only [statusPayload, statusHead_eq, statusGrants_eq, statusDetectors_eq, statusArbiter,
    statusLog, u8_eq, u16_eq, List.length_append, flightBytes_length, outcomeBytes_length,
    detectorLayout_length, be_length, beTemp_length, bePlace_length, List.length_cons,
    List.length_nil]

/-! ### Zones (R27) -/

theorem zoneKindCode_eq (k : ZoneKind) : k.number = zoneLayout.zoneKindCode k := by cases k <;> rfl

theorem zoneBytes_eq (pr : Profile) (s : State) (z : Nat) (e : ZoneItems) :
    zoneBytes pr s z e = zoneLayout pr s z e := by
  unfold zoneBytes zoneLayout
  by_cases h : e.kind = .dryer <;>
    simp [h, u8_eq, u16_eq, u32_eq, i16_eq, zoneKindCode_eq, State.setpoint, State.cap]

theorem zoneBytes_length (pr : Profile) (s : State) (z : Nat) (e : ZoneItems) :
    (zoneBytes pr s z e).length = 26 := by
  rw [zoneBytes_eq]
  simp [zoneLayout]

theorem codesOfFields : CodesOfFields := by
  refine ⟨rfl, rfl, rfl, rfl, rfl, rfl, rfl, fun z => ⟨rfl, rfl⟩, rfl, rfl, rfl, rfl,
    fun r => ⟨rfl, rfl⟩, rfl, rfl, by decide⟩

/-- Settles O55: each request answers the state it found; its bytes are the layout field by field. -/
theorem readsChangeNothing : Obligations.ReadsChangeNothing := by
  intro p s
  refine ⟨exec_answers (r := .ping) rfl rfl rfl, exec_answers (r := .statusRead) rfl rfl rfl,
    codesOfFields, statusPayload_eq p _, statusPayload_length p _, fun r _ => ?_,
    fun a b hnone => ⟨?_, ?_⟩, fun pr hpr => ⟨fun z hz => ?_, fun z e he => ⟨?_, ?_, ?_⟩,
      fun first count => ⟨fun hbad => ?_, fun hok => ?_⟩⟩⟩
  · rw [segRecord_bytes]
    exact ⟨rfl, segmentLayout_length r⟩
  · refine exec_answers (r := .zoneRead) rfl rfl ?_
    simp only [handlerOf, handleZoneRead, hnone]
    rfl
  · refine exec_answers (r := .ringRead) rfl rfl ?_
    simp only [handlerOf, handleRingRead, hnone]
    rfl
  · refine exec_answers (r := .zoneRead) rfl rfl ?_
    have hnone : pr.usedZone z.toNat = none := List.getElem?_eq_none hz
    simp only [handlerOf, handleZoneRead, hpr, fieldAt_byte₀, hnone]
    rfl
  · refine exec_answers (r := .zoneRead) rfl rfl ?_
    have hsome : pr.usedZone z.toNat = some e := he
    simp only [handlerOf, handleZoneRead, hpr, fieldAt_byte₀, hsome]
    rfl
  · exact zoneBytes_eq pr _ _ e
  · exact zoneBytes_length pr _ _ e
  · refine exec_answers (r := .ringRead) rfl rfl ?_
    simp only [handlerOf, handleRingRead, hpr, fieldAt_byte₀, fieldAt_byte₁, if_neg hbad]
    rfl
  · refine exec_answers (r := .ringRead) rfl rfl ?_
    simp only [handlerOf, handleRingRead, hpr, fieldAt_byte₀, fieldAt_byte₁, if_pos hok, u8_toNat]
    rfl

end Sys2Proof.Machine
end

section
/-! PROOFS. The transit log (R151 to R160), the record that leaves (R16, R17), the ring operations of a break
(R23 to R25) and the floor duty (R54). -/
namespace Sys2Proof.Machine

/-! ### An append (R151, R152, R156) -/

theorem discardsUnread_iff (l : TransitLog) (p : Port) :
    l.discardsUnread p = true ↔ 240 ≤ l.records.length ∧ l.unread.get p = l.records.length := by
  rw [TransitLog.discardsUnread, Bool.and_eq_true, decide_eq_true_iff, beq_iff_eq]
  rfl

theorem place_records (l : TransitLog) (r : LogRecord) :
    (240 ≤ l.records.length → (l.place r).records = l.records.drop 1 ++ [r]) ∧
      (¬240 ≤ l.records.length → (l.place r).records = l.records ++ [r]) := by
  have hdef : (l.place r).records =
      (if 240 ≤ l.records.length then l.records.drop 1 else l.records) ++ [r] := rfl
  rw [hdef]
  exact ⟨fun h => by rw [if_pos h], fun h => by rw [if_neg h]⟩

theorem place_counts (l : TransitLog) (r : LogRecord) (p : Port) :
    (l.place r).unread.get p =
        (if l.discardsUnread p then l.unread.get p else l.unread.get p + 1) ∧
      (l.place r).skip.get p =
        (if l.discardsUnread p then min 255 (l.skip.get p + 1) else l.skip.get p) := by
  simp [TransitLog.place]

/-- The kinds pending and the conditions that hold once a record is placed. -/
theorem logPlace_notices (b : LogBody) (s : State) (p : Port) :
    (s.log.discardsUnread p = true → Notice.logSkip.inSet ((logPlace b s).port p).pendingSet = true) ∧
      Notice.logWatermark.inSet ((logPlace b s).port p).holding =
        decide (s.watermark p ≤ (logPlace b s).log.unread.get p) := by
  obtain ⟨-, -, -, -, -, -, -, -, -, -, -, -, -, hlink⟩ := raiseSkips_frame s
  obtain ⟨-, -, -, -, -, -, -, -, -, -, -, hmark⟩ := PortState.of_link (hlink p)
  have hw : (raiseSkips s).watermark p = s.watermark p := hmark
  constructor
  · intro h
    simp [logPlace, evalWatermarks, raiseSkips, h]
  · simp only [logPlace, evalWatermarks, setPorts_port, PerPort.get_of, setCondition_holding, if_true,
      setLog_log, setPorts_log]
    rw [← hw]
    rfl

/-- What an append does to records and counts, and to the notices that follow from them. -/
structure Placed (b : LogBody) (s t : State) : Prop where
  records : t.log.records = (s.log.place { body := b, stamp := s.time.ms }).records
  unread : t.log.unread = (s.log.place { body := b, stamp := s.time.ms }).unread
  skip : t.log.skip = (s.log.place { body := b, stamp := s.time.ms }).skip
  drops : t.log.drops = s.log.drops
  skips : ∀ p, s.log.discardsUnread p = true → Notice.logSkip.inSet (t.port p).pendingSet = true
  watermarks : ∀ p, Notice.logWatermark.inSet (t.port p).holding =
    decide (s.watermark p ≤ t.log.unread.get p)

theorem logPlace_placed (b : LogBody) (s : State) : Placed b s (logPlace b s) :=
  ⟨by rw [logPlace_log], by rw [logPlace_log], by rw [logPlace_log], by rw [logPlace_log]; rfl,
    fun p => (logPlace_notices b s p).1, fun p => (logPlace_notices b s p).2⟩

theorem logAppend_opened {b : LogBody} {s : State} (h : s.log.freeze = .opened) :
    logAppend b s = logPlace b s := by
  simp only [logAppend, h]

theorem logAppend_frozen {b : LogBody} {s : State} (h : s.log.freeze = .frozen) :
    logAppend b s = s.setLog { s.log with drops := min 65535 (s.log.drops + 1) } := by
  simp only [logAppend, h]

theorem logAppend_armed {b : LogBody} {s : State} {r : Nat} (h : s.log.freeze = .armed (r + 1)) :
    logAppend b s =
      (logPlace b s).setLog { (logPlace b s).log with freeze := .armed r } := by
  simp only [logAppend, h, Nat.add_eq_zero_iff, Nat.one_ne_zero, and_false, if_false,
    Nat.add_sub_cancel]

theorem logAppend_freezing {b : LogBody} {s : State} (h : s.log.freeze = .armed 0) :
    logAppend b s =
      raiseAll .logFrozen ((logPlace b s).setLog { (logPlace b s).log with freeze := .frozen }) := by
  simp only [logAppend, h, if_true]

theorem logAppend_placed {b : LogBody} {s : State} (h : s.log.freeze ≠ .frozen) :
    Placed b s (logAppend b s) := by
  obtain ⟨hrecords, hunread, hskip, hdrops, hskips, hwatermarks⟩ := logPlace_placed b s
  cases hf : s.log.freeze with
  | frozen => exact absurd hf h
  | opened =>
    rw [logAppend_opened hf]
    exact logPlace_placed b s
  | armed r =>
    cases r with
    | succ r =>
      rw [logAppend_armed hf]
      exact ⟨hrecords, hunread, hskip, hdrops, hskips, hwatermarks⟩
    | zero =>
      rw [logAppend_freezing hf]
      refine ⟨hrecords, hunread, hskip, hdrops, fun p hp => ?_, fun p => ?_⟩
      · simp [raiseAll, hskips p hp]
      · simpa [raiseAll] using hwatermarks p

/-- The freeze after an append (R158). -/
theorem logAppend_freeze (b : LogBody) (s : State) :
    (s.log.freeze = .opened → (logAppend b s).log.freeze = .opened) ∧
      (∀ r, s.log.freeze = .armed (r + 1) → (logAppend b s).log.freeze = .armed r) ∧
      (s.log.freeze = .armed 0 →
        (logAppend b s).log.freeze = .frozen ∧
          ∀ p, Notice.logFrozen.inSet ((logAppend b s).port p).pendingSet = true) := by
  refine ⟨fun h => ?_, fun r h => ?_, fun h => ?_⟩
  · rw [logAppend_opened h, logPlace_log]
    exact h
  · rw [logAppend_armed h]
    rfl
  · rw [logAppend_freezing h]
    exact ⟨rfl, fun p => by simp [raiseAll]⟩

/-- Settles O48, from what an append places and the freeze it leaves. -/
theorem logAppendRule : Obligations.LogAppendRule := by
  intro b s
  refine ⟨logAppend_frozen, fun hf => ?_⟩
  obtain ⟨hrecords, hunread, hskip, hdrops, hskips, hwatermarks⟩ := logAppend_placed (b := b) hf
  obtain ⟨hfull, hroom⟩ := place_records s.log { body := b, stamp := s.time.ms }
  have hcounts := place_counts s.log { body := b, stamp := s.time.ms }
  refine ⟨logAppend_frame b s, hdrops, fun h => hrecords.trans (hfull h),
    fun h => hrecords.trans (hroom h), fun p hp => ?_, fun p hp => ?_, hwatermarks,
    logAppend_freeze b s⟩
  · have hd := (discardsUnread_iff s.log p).mpr hp
    rw [hunread, hskip, (hcounts p).1, (hcounts p).2, if_pos hd, if_pos hd]
    exact ⟨rfl, rfl, hskips p hd⟩
  · have hd : ¬s.log.discardsUnread p = true := fun h => hp ((discardsUnread_iff s.log p).mp h)
    rw [hunread, hskip, (hcounts p).1, (hcounts p).2, if_neg hd, if_neg hd]
    exact ⟨rfl, rfl⟩

/-! ### LOG_READ and LOG_RELEASE -/

theorem logOnly_trans {s t u : State} (h : LogOnly s t) (k : LogOnly t u) : LogOnly s u := by
  simp_all [LogOnly]

theorem advanceCursor_counts (l : TransitLog) (p q : Port) (n : Nat) :
    ((l.advanceCursor p n).unread.get q =
        if q = p then l.unread.get p - n else l.unread.get q) ∧
      ((l.advanceCursor p n).skip.get q = if q = p then 0 else l.skip.get q) := by
  by_cases h : q = p
  · subst h
    simp [TransitLog.advanceCursor]
  · simp [TransitLog.advanceCursor, h]

/-- The end of a freeze: OPEN and no drops, once the RELEASED record is in. -/
theorem releaseFreeze_effects (p : Port) (s : State) :
    LogOnly s (releaseFreeze p s) ∧ (releaseFreeze p s).log.freeze = .opened ∧
      (releaseFreeze p s).log.drops = 0 ∧
      (releaseFreeze p s).log.records =
        (logAppend (.released p s.log.drops) (s.setLog { s.log with freeze := .opened })).log.records := by
  have hopen : (s.setLog { s.log with freeze := .opened }).log.freeze = .opened := rfl
  refine ⟨?_, (logAppend_freeze _ _).1 hopen, rfl, rfl⟩
  refine logOnly_trans ?_ (logOnly_trans (logAppend_frame (.released p s.log.drops)
    (s.setLog { s.log with freeze := .opened })) ?_)
  · simp [LogOnly]
  · simp [LogOnly, releaseFreeze]

/-- Settles O49: the reply is built on the log found, the cursor moves on the log left. -/
theorem logReadAndRelease : Obligations.LogReadAndRelease := by
  intro p maximum s
  refine ⟨logRecord_bytes, fun hbad => ?_, fun h0 hle => ?_, fun hf => ?_, fun hf => ?_⟩
  · refine exec_answers (r := .logRead) rfl rfl ?_
    have hrange : ¬(1 ≤ maximum.toNat ∧ maximum.toNat ≤ 14) := by
      rcases hbad with rfl | h
      · decide
      · omega
    simp only [handlerOf, handleLogRead, fieldAt_byte₀, if_neg hrange]
    rfl
  · have hrange : 1 ≤ maximum.toNat ∧ maximum.toNat ≤ 14 := by
      have hne : maximum.toNat ≠ 0 := fun h => h0 (BitVec.eq_of_toNat_eq h)
      omega
    have hcounts := advanceCursor_counts (frameTaken p s).log p
    refine ⟨_, exec_answers (r := .logRead) rfl rfl (t := evalWatermarks ((frameTaken p s).setLog
      ((frameTaken p s).log.advanceCursor p
        (min maximum.toNat ((frameTaken p s).log.unread.get p))))) ?_, ?_, ?_, ?_, ?_, ?_, ?_⟩
    · simp only [handlerOf, handleLogRead, fieldAt_byte₀, if_pos hrange]
      have hp := (hcounts p (min maximum.toNat ((frameTaken p s).log.unread.get p))).1
      rw [if_pos rfl] at hp
      simp only [evalWatermarks_frame, setLog_log, hp]
      rfl
    · simp [LogOnly]
    · simp [TransitLog.advanceCursor]
    · simp [TransitLog.advanceCursor]
    · simp [TransitLog.advanceCursor]
    · intro q
      simpa using (hcounts q _).1
    · intro q
      simpa using (hcounts q _).2
  · refine exec_answers (r := .logRelease) rfl rfl ?_
    simp only [handlerOf, handleLogRelease, hf]
    rfl
  · have heffects := releaseFreeze_effects p (frameTaken p s)
    refine ⟨_, exec_answers (r := .logRelease) rfl rfl (t := releaseFreeze p (frameTaken p s)) ?_,
      heffects⟩
    cases hfreeze : (frameTaken p s).log.freeze with
    | opened => exact absurd hfreeze hf
    | armed r =>
      simp only [handlerOf, handleLogRelease, hfreeze]
      rfl
    | frozen =>
      simp only [handlerOf, handleLogRelease, hfreeze]
      rfl

/-! ### The record that leaves -/

theorem handOff_of_heat {pr : Profile} {r : SegRecord} {h : SegHeat} (s : State) (hk : r.kind ≠ .void)
    (hh : r.heat = some h) :
    handOff pr r s =
      if raisesExitFlag r.kind (exitFlags pr r h) then
        raiseAll .exitFlag
          (logAppend (.exit r.kind (exitFlags pr r h) r.seq r.solvent h.temp h.peak r.tag) s)
      else logAppend (.exit r.kind (exitFlags pr r h) r.seq r.solvent h.temp h.peak r.tag) s := by
  simp only [handOff, if_neg hk, hh]

/-- Settles O14, by whether the flags of the record raise EXIT_FLAG. -/
theorem exitRecord : Obligations.ExitRecord := by
  intro pr r s
  refine ⟨fun hk => by rw [handOff, if_pos hk], ?_⟩
  rintro hk h hh wet under hot rfl rfl rfl
  rw [handOff_of_heat s hk hh]
  refine ⟨fun hprinted hflag => ?_, fun hquiet => ?_⟩
  · have hraises : raisesExitFlag r.kind (exitFlags pr r h) = true := by
      simpa [raisesExitFlag, hprinted, exitFlags] using hflag
    rw [if_pos hraises]
    rfl
  · have hraises : ¬raisesExitFlag r.kind (exitFlags pr r h) = true := by
      rcases hquiet with hblank | hflags
      · simp [raisesExitFlag, hblank]
      · have hor : ((exitFlags pr r h).wet || (exitFlags pr r h).underchilled ||
            (exitFlags pr r h).overheated) = false := hflags
        simp [raisesExitFlag, hor]
    rw [if_neg hraises]
    rfl

/-! ### The ring operations of a break -/

theorem restoreRecord_of_void {pr : Profile} {r : SegRecord} (h : r.kind = .void) :
    restoreRecord pr r =
      { r with
        kind := .blank, solvent := 0, heat := some { temp := pr.ambient, peak := pr.ambient },
        tag := none } := by
  rw [restoreRecord, if_pos h]

/-- Settles O15, position by position. -/
theorem breakRingOperations : Obligations.BreakRingOperations := by
  intro pr p l
  refine ⟨fun q hq => ?_, fun q r hq hr => ?_, voidFrom_length p l, ?_, fun q r hr => ?_,
    strandTo_length pr p l, fun r hr => ?_, fun r => restoreRecord_of_void⟩
  · rw [voidFrom_getElem?, if_pos hq]
  · rw [voidFrom_getElem?, if_neg (by omega), hr]
    rfl
  · simp only [voidCount, List.countP_eq_length_filter]
  · rw [strandTo_getElem?, hr]
    by_cases hz : q ≤ p ∧ q < pr.dryerLength
    · rw [if_pos hz]
      by_cases hk : r.kind = .void <;> simp [strandRecord, hz, hk]
    · rw [if_neg hz, if_neg (fun h => hz ⟨h.1, h.2.1⟩)]
  · rw [restoreRecord, if_neg hr]

/-! ### The floor duty (R54) -/

/-- What forces the floor duty to 256. -/
def ForcesDuty (pr : Profile) (s : State) : Prop :=
  s.line.phase = .unconfigured ∨ s.line.phase = .webBreak ∨ s.line.phase = .safe ∨
    pr.loadTrip ≤ s.load.peak ∨ (s.load.flow = 0 ∧ ∃ r ∈ s.ring.release, 0 < r) ∨
    ((s.port .dryer).live = .lost ∧ (s.port .dryer).action = .limit)

theorem floorDuty_of_forced {pr : Profile} {s : State} (hp : s.prof.committed = some pr)
    (h : ForcesDuty pr s) : floorDuty s = 256 := by
  have hforced : (s.line.phase == .unconfigured || s.line.phase == .webBreak ||
      s.line.phase == .safe || decide (pr.loadTrip ≤ s.load.peak) ||
      (s.load.flow == 0 && s.ring.release.any (fun r => decide (0 < r))) ||
      s.lostUnderLimit .dryer) = true := by
    simpa [ForcesDuty, State.lostUnderLimit, or_assoc] using h
  simp only [floorDuty, hp, hforced, if_true]

theorem floorDuty_of_free {pr : Profile} {s : State} (hp : s.prof.committed = some pr)
    (h : ¬ForcesDuty pr s) :
    (s.line.phase.heated → floorDuty s = max s.load.baseDuty pr.dutyMin) ∧
      (s.line.phase = .cold → floorDuty s = pr.dutyCold) ∧
      (s.line.phase = .purge → floorDuty s = pr.purgeDuty) := by
  have hforced : (s.line.phase == .unconfigured || s.line.phase == .webBreak ||
      s.line.phase == .safe || decide (pr.loadTrip ≤ s.load.peak) ||
      (s.load.flow == 0 && s.ring.release.any (fun r => decide (0 < r))) ||
      s.lostUnderLimit .dryer) = false := by
    rw [Bool.eq_false_iff]
    intro hf
    exact h (by simpa [ForcesDuty, State.lostUnderLimit, or_assoc] using hf)
  simp only [floorDuty, hp, hforced]
  refine ⟨fun hh => ?_, fun hh => ?_, fun hh => ?_⟩
  · cases hphase : s.line.phase <;> simp_all [Phase.heated]
  · simp [hh]
  · simp [hh]

/-- Settles O18, by whether the duty is forced. -/
theorem floorDutyRule : Obligations.FloorDutyRule := by
  intro s
  refine ⟨fun hnone => ?_, fun pr hpr => ⟨fun h => floorDuty_of_forced hpr h, fun h => ?_, fun h => ?_,
    fun h => ?_⟩⟩
  · rw [setFloorDuty_load, floorDuty, hnone]
  · exact (floorDuty_of_free hpr h).1
  · exact (floorDuty_of_free hpr h).2.1
  · exact (floorDuty_of_free hpr h).2.2

end Sys2Proof.Machine
end

section
/-! PROOFS. The envelope at a recomputation: the ceiling and its limiter (R64 to R69, R72), the predicted exit
temperature and UNDERCHILL (R76, R77). -/
namespace Sys2Proof.Machine

/-! ### The least component (R64) -/

/-- `b` is the least of the components whose codes lie below `n`, with the first of the least as its
limiter. -/
structure LeastBelow (c : Components) (n : Nat) (b : Bound) : Prop where
  attained : c.value b.limiter = some b.value
  code : b.limiter.code < n
  least : ∀ l v, l.code < n → c.value l = some v →
    b.value ≤ v ∧ (v = b.value → b.limiter.code ≤ l.code)

theorem Limiter.code_inj {l m : Limiter} (h : l.code = m.code) : l = m := by
  cases l <;> cases m <;> first | rfl | exact absurd h (by decide)

theorem Limiter.code_lt (l : Limiter) : l.code < 6 := by cases l <;> decide

/-- Meeting the next component in the tie order. -/
theorem LeastBelow.meet {c : Components} {n : Nat} {b : Bound} (h : LeastBelow c n b) (l : Limiter)
    (hl : l.code = n) : LeastBelow c (n + 1) (b.meet l (c.value l)) := by
  have hcode := h.code
  have hcases : ∀ m : Limiter, m.code < n + 1 → m.code < n ∨ m = l := fun m hm => by
    rcases (by omega : m.code < n ∨ m.code = n) with hlt | heq
    · exact .inl hlt
    · exact .inr (Limiter.code_inj (heq.trans hl.symm))
  cases hv : c.value l with
  | none =>
    refine ⟨h.attained, Nat.lt_succ_of_lt hcode, fun m v hm hmv => ?_⟩
    rcases hcases m hm with hlt | rfl
    · exact h.least m v hlt hmv
    · exact absurd (hmv.symm.trans hv) (by simp)
  | some w =>
    change LeastBelow c (n + 1) (if w < b.value then { value := w, limiter := l } else b)
    by_cases hw : w < b.value
    · rw [if_pos hw]
      refine ⟨hv, by rw [← hl]; exact Nat.lt_succ_self _, fun m v hm hmv => ?_⟩
      dsimp only
      rcases hcases m hm with hlt | rfl
      · have := (h.least m v hlt hmv).1
        exact ⟨by omega, fun e => by omega⟩
      · obtain rfl := Option.some.inj (hv.symm.trans hmv)
        exact ⟨Nat.le_refl _, fun _ => Nat.le_refl _⟩
    · rw [if_neg hw]
      refine ⟨h.attained, Nat.lt_succ_of_lt hcode, fun m v hm hmv => ?_⟩
      rcases hcases m hm with hlt | rfl
      · exact h.least m v hlt hmv
      · obtain rfl := Option.some.inj (hv.symm.trans hmv)
        exact ⟨Nat.le_of_not_lt hw, fun _ => by omega⟩

theorem leastBound_least {c : Components} {v : Nat} (h : c.max = some v) :
    LeastBelow c 6 (leastBound v c) := by
  have hmax : LeastBelow c 1 { value := v, limiter := .max } :=
    ⟨h, Nat.zero_lt_one, fun l w hl hw => by
      obtain rfl : l = .max := Limiter.code_inj (Nat.lt_one_iff.mp hl)
      obtain rfl := Option.some.inj (h.symm.trans hw)
      exact ⟨Nat.le_refl _, fun _ => Nat.le_refl _⟩⟩
  exact ((((hmax.meet .phase rfl).meet .fill rfl).meet .vapour rfl).meet .chill rfl).meet .port rfl

/-! ### The envelope formed -/

theorem envelopeOf_none {s : State} (h : s.prof.committed = none) : envelopeOf s = emptyEnvelope s.env := by
  rw [envelopeOf, h]

section
variable {pr : Profile} {s : State} (h : s.prof.committed = some pr)
include h

theorem envelopeOf_tIn : (envelopeOf s).tIn = chillEntry pr s.ring.records := by
  rw [envelopeOf, h]

theorem envelopeOf_comps :
    (envelopeOf s).comps = components pr s (chillEntry pr s.ring.records) := by
  rw [envelopeOf, h]

theorem envelopeOf_heatCaps :
    (envelopeOf s).heatCaps = pr.dryers.map (heatCap pr s.line.phase s.env.idle) := by
  rw [envelopeOf, h]

theorem envelopeOf_least :
    LeastBelow (envelopeOf s).comps 6
      { value := (envelopeOf s).ceiling, limiter := (envelopeOf s).limiter } := by
  rw [envelopeOf, h]
  exact leastBound_least rfl

theorem envelopeOf_predicted :
    (envelopeOf s).predicted =
        some (trialResult pr (rollsOf pr s.ring.inputs) (predictionTime pr s.motion)
          (envelopeOf s).tIn) ∧
      (envelopeOf s).underchill =
        !trialPasses pr (rollsOf pr s.ring.inputs) (predictionTime pr s.motion)
          (envelopeOf s).tIn := by
  rw [envelopeOf, h]
  exact ⟨rfl, rfl⟩

/-- Where the PHASE component is 0 the ceiling is 0, and with a positive SPEED_MAX the limiter PHASE. -/
theorem envelopeOf_of_still_phase (hphase : phaseComponent pr s.line.phase = 0) :
    (envelopeOf s).ceiling = 0 ∧ (0 < pr.speedMax → (envelopeOf s).limiter = .phase) := by
  obtain ⟨hattained, -, hleast⟩ := envelopeOf_least h
  have hcomps := envelopeOf_comps h
  have hval : (envelopeOf s).comps.value .phase = some 0 := by
    rw [hcomps]
    exact congrArg some hphase
  obtain ⟨hle, htie⟩ := hleast .phase 0 (by decide) hval
  have hzero : (envelopeOf s).ceiling = 0 := Nat.le_zero.mp hle
  refine ⟨hzero, fun hpos => ?_⟩
  have hcode : (envelopeOf s).limiter.code ≤ 1 := htie hzero.symm
  cases hlim : (envelopeOf s).limiter <;> rw [hlim] at hcode
  case max =>
    rw [hlim, hzero, hcomps] at hattained
    have hmax : some pr.speedMax = some 0 := hattained
    exact absurd (Option.some.inj hmax) (by omega)
  all_goals exact absurd hcode (by decide)

end

/-- In SAFE and in BREAK the ceiling and the heat caps are 0. -/
theorem envelopeOf_of_stopped {s : State} (h : s.line.phase = .safe ∨ s.line.phase = .webBreak) :
    (envelopeOf s).ceiling = 0 ∧
      (∀ pr, s.prof.committed = some pr → 0 < pr.speedMax → (envelopeOf s).limiter = .phase) := by
  cases hp : s.prof.committed with
  | none =>
    rw [envelopeOf_none hp]
    exact ⟨rfl, fun pr hpr => absurd hpr (by simp)⟩
  | some pr =>
    have hzero : phaseComponent pr s.line.phase = 0 := by rcases h with h | h <;> rw [h] <;> rfl
    obtain ⟨hceiling, hlimiter⟩ := envelopeOf_of_still_phase hp hzero
    exact ⟨hceiling, fun x hx => by obtain rfl := Option.some.inj hx; exact hlimiter⟩

theorem envelopeOf_cold {s : State} (h : s.line.phase.heated = false) :
    ∀ c ∈ (envelopeOf s).heatCaps, c = 0 := by
  cases hp : s.prof.committed with
  | none =>
    rw [envelopeOf_none hp]
    exact fun c hc => absurd hc (by simp [emptyEnvelope])
  | some pr =>
    rw [envelopeOf_heatCaps hp]
    intro c hc
    obtain ⟨e, -, rfl⟩ := List.mem_map.mp hc
    simp [heatCap, h]

/-! ### The notices of a recomputation -/

theorem recompute_eq (s : State) :
    recompute s =
      setConditionAll .underchill (envelopeOf s).underchill
        (if ceilingDrops s.motion.vMeas s.env.ceiling (envelopeOf s).ceiling then
          raiseAll .ceilingDrop (s.setEnv (envelopeOf s))
        else s.setEnv (envelopeOf s)) := rfl

theorem ceilingDrops_iff (v old new : Nat) : ceilingDrops v old new = true ↔ v ≤ old ∧ new < v := by
  simp [ceilingDrops]

theorem recompute_ceilingDrop (s : State) (p : Port) :
    Notice.ceilingDrop.inSet ((recompute s).port p).pendingSet =
      (Notice.ceilingDrop.inSet (s.port p).pendingSet ||
        ceilingDrops s.motion.vMeas s.env.ceiling (envelopeOf s).ceiling) := by
  rw [recompute_eq]
  split
  · next h => simp [setConditionAll, raiseAll, h]
  · next h => simp [setConditionAll, h]

theorem raiseAll_keepsLevel {k j : Notice} (h : k ≠ j) (s : State) : KeepsLevel k s (raiseAll j s) := by
  intro p
  simp [raiseAll, h]

theorem recompute_underchill (s : State) :
    LevelBecomes .underchill (envelopeOf s).underchill s (recompute s) := by
  rw [recompute_eq]
  refine .of_keepsLevel ?_ (setConditionAll_becomes _ _ _)
  split
  · exact raiseAll_keepsLevel (k := .underchill) (j := .ceilingDrop) (by decide) (s.setEnv _)
  · exact fun p => ⟨rfl, rfl⟩

/-! ### The statements -/

/-- Settles O21: the bounds are met one after another in the tie order. -/
theorem ceilingIsLeastComponent : Obligations.CeilingIsLeastComponent := by
  refine ⟨fun s h => ?_, fun pr s h => ?_, fun s p => ?_⟩
  · rw [recompute_env, envelopeOf_none h]
    exact ⟨rfl, rfl⟩
  · rw [recompute_env]
    obtain ⟨hattained, -, hleast⟩ := envelopeOf_least h
    have hcomps := envelopeOf_comps h
    refine ⟨hattained, fun l v => hleast l v l.code_lt, ?_⟩
    rw [hcomps]
    refine ⟨rfl, fun hph => ?_, fun hph => ?_, fun hph => ?_, rfl, rfl, rfl, ?_⟩
    · rcases hph with hph | hph | hph <;> simp [components, phaseComponent, hph]
    · rcases hph with hph | hph | hph <;> simp [components, phaseComponent, hph]
    · rcases hph with hph | hph | hph <;> simp [components, phaseComponent, hph]
    · simp [components, portComponent, State.lostUnderLimit]
  · rw [recompute_ceilingDrop, recompute_env]
    refine ⟨fun hdrops => ?_, fun hdrops => ?_⟩
    · simp [(ceilingDrops_iff _ _ _).mpr hdrops]
    · have hno : ceilingDrops s.motion.vMeas s.env.ceiling (envelopeOf s).ceiling = false := by
        rw [Bool.eq_false_iff, Ne, ceilingDrops_iff]
        exact hdrops
      simp [hno]

/-- Settles O24: the prediction is the trial's result, UNDERCHILL its failure. -/
theorem predictedExit : Obligations.PredictedExit := by
  intro s
  refine ⟨fun h => ?_, fun pr h => ⟨chillTrialRule pr, ?_⟩, ?_⟩
  · rw [recompute_env, envelopeOf_none h]
    exact ⟨rfl, rfl⟩
  · rw [recompute_env]
    obtain ⟨hpredicted, hunderchill⟩ := envelopeOf_predicted h
    rw [hpredicted, hunderchill]
    refine ⟨fun hnone => ?_, fun x hx => ?_⟩
    · rw [hnone]
      exact ⟨rfl, rfl⟩
    · rw [hx]
      refine ⟨rfl, ?_⟩
      simp only [trialPasses, Bool.not_eq_true', decide_eq_false_iff_not, Int.not_le]
      rfl
  · rw [recompute_env]
    exact recompute_underchill s

end Sys2Proof.Machine
end

section
/-! PROOFS. Notices that stay pending, the ends of changes and their outcomes (R146, R147), and the parts of a
phase change (R81). -/
namespace Sys2Proof.Machine

/-! ### What is pending stays pending -/

/-- Every kind pending at a port in `s` is pending there in `t`: nothing but a NOTICE_READ, a RESTART and a
reset takes a kind out of a pending set. -/
def KeepsPending (s t : State) : Prop :=
  ∀ (k : Notice) (p : Port), k.inSet (s.port p).pendingSet = true →
    k.inSet (t.port p).pendingSet = true

namespace KeepsPending

theorem refl (s : State) : KeepsPending s s := fun _ _ => id

theorem trans {s t u : State} (h : KeepsPending s t) (k : KeepsPending t u) : KeepsPending s u :=
  fun n p => k n p ∘ h n p

/-- An operation that leaves the ports alone, before one that keeps what is pending. -/
theorem after_ports {s t u : State} (k : KeepsPending t u) (h : t.ports = s.ports) :
    KeepsPending s u := by
  intro n p hn
  have hp : t.port p = s.port p := by simp [State.port, h]
  exact k n p (hp ▸ hn)

theorem of_ports {s t : State} (h : t.ports = s.ports) : KeepsPending s t := after_ports (.refl t) h

theorem raiseAt (k : Notice) (p : Port) (s : State) : KeepsPending s (raiseAt k p s) := by
  intro n q hn
  unfold Machine.raiseAt
  rw [modPort_port]
  split
  · next h => subst h; simp [hn]
  · exact hn

theorem raiseAll (k : Notice) (s : State) : KeepsPending s (raiseAll k s) := by
  intro n q hn
  simp [Machine.raiseAll, hn]

theorem raiseOthers (k : Notice) (p : Port) (s : State) : KeepsPending s (raiseOthers k p s) := by
  intro n q hn
  simp only [Machine.raiseOthers, setPorts_port, PerPort.get_of]
  split
  · exact hn
  · rw [raise_inSet]; exact Bool.or_eq_true_iff.mpr (.inl hn)

theorem setConditionAll (k : Notice) (b : Bool) (s : State) : KeepsPending s (setConditionAll k b s) := by
  intro n q hn
  simp [Machine.setConditionAll, hn]

theorem evalWatermarks (s : State) : KeepsPending s (evalWatermarks s) := by
  intro n q hn
  have hq : Notice.inSet n (s.ports.get q).pendingSet = true := hn
  simp [Machine.evalWatermarks, hq]

theorem raiseSkips (s : State) : KeepsPending s (raiseSkips s) := by
  intro n q hn
  simp only [Machine.raiseSkips, setPorts_port, PerPort.get_of]
  split
  · rw [raise_inSet]; exact Bool.or_eq_true_iff.mpr (.inl hn)
  · exact hn

theorem logPlace (b : LogBody) (s : State) : KeepsPending s (logPlace b s) :=
  (raiseSkips s).trans (after_ports (evalWatermarks _) rfl)

theorem logAppend (b : LogBody) (s : State) : KeepsPending s (logAppend b s) := by
  unfold Machine.logAppend
  split
  · exact of_ports rfl
  · exact logPlace b s
  · dsimp only
    split
    · exact (logPlace b s).trans (after_ports (raiseAll _ _) rfl)
    · exact (logPlace b s).trans (of_ports rfl)

theorem recompute (s : State) : KeepsPending s (recompute s) := by
  rw [recompute_eq]
  refine .trans ?_ (setConditionAll _ _ _)
  split
  · exact after_ports (raiseAll _ _) rfl
  · exact of_ports rfl

theorem storeOutcome (o : ChangeOutcome) (s : State) : KeepsPending s (storeOutcome o s) :=
  after_ports (raiseAt _ _ _) rfl

theorem endInFlight (r : EndReason) (s : State) : KeepsPending s (endInFlight r s) := by
  unfold Machine.endInFlight
  split
  · exact refl s
  · exact after_ports (storeOutcome _ _) rfl

theorem storeEnds (r : EndReason) (l : List PendingEntry) (s : State) :
    KeepsPending s (storeEnds r l s) := by
  induction l generalizing s with
  | nil => exact refl s
  | cons e l ih => exact (storeOutcome _ _).trans (ih _)

theorem endPending (f : PendingEntry → Bool) (r : EndReason) (s : State) :
    KeepsPending s (endPending f r s) := after_ports (storeEnds _ _ _) rfl

theorem abortChanges (s : State) : KeepsPending s (abortChanges s) :=
  (endInFlight _ _).trans (endPending _ _ _)

theorem arbiterPhaseChange (a b : Phase) (s : State) : KeepsPending s (arbiterPhaseChange a b s) := by
  unfold Machine.arbiterPhaseChange
  split
  · exact abortChanges s
  · split
    · exact of_ports rfl
    · split <;> exact of_ports rfl

end KeepsPending

/-! ### Outcomes of the changes that end (R147) -/

theorem storeEnds_append (r : EndReason) (l m : List PendingEntry) (s : State) :
    storeEnds r (l ++ m) s = storeEnds r m (storeEnds r l s) := by
  induction l generalizing s with
  | nil => rfl
  | cons e l ih => exact ih _

theorem storeOutcome_outcomes (o : ChangeOutcome) (s : State) (p : Port) :
    (storeOutcome o s).arb.outcomes.get p =
      if p = keyOwner o.key then some o else s.arb.outcomes.get p := by
  rw [storeOutcome_arb]
  split
  · next h => rw [h, PerPort.get_set_same]
  · next h => rw [PerPort.get_set_other _ _ h]

theorem storeOutcome_noticed (o : ChangeOutcome) (s : State) :
    Notice.changeDone.inSet ((storeOutcome o s).port (keyOwner o.key)).pendingSet = true := by
  simp [storeOutcome, raiseAt]

/-- A port none of whose entries ends keeps its outcome. -/
theorem storeEnds_outcome_of_none {l : List PendingEntry} {p : Port}
    (h : ∀ e ∈ l, keyOwner e.key ≠ p) (r : EndReason) (s : State) :
    (storeEnds r l s).arb.outcomes.get p = s.arb.outcomes.get p := by
  induction l generalizing s with
  | nil => rfl
  | cons e l ih =>
    have he : p ≠ keyOwner e.key := Ne.symm (h e (List.mem_cons_self ..))
    rw [storeEnds, ih (fun x hx => h x (List.mem_cons_of_mem _ hx)), storeOutcome_outcomes]
    exact if_neg he

/-- A port's outcome is that of its last entry that ends. -/
theorem storeEnds_outcome_of_last {l m : List PendingEntry} {e : PendingEntry}
    (h : ∀ x ∈ m, keyOwner x.key ≠ keyOwner e.key) (r : EndReason) (s : State) :
    (storeEnds r (l ++ e :: m) s).arb.outcomes.get (keyOwner e.key) = some (e.outcome r) := by
  rw [storeEnds_append, storeEnds, storeEnds_outcome_of_none h, storeOutcome_outcomes]
  exact if_pos rfl

theorem storeEnds_noticed {l : List PendingEntry} {e : PendingEntry} (he : e ∈ l) (r : EndReason)
    (s : State) :
    Notice.changeDone.inSet ((storeEnds r l s).port (keyOwner e.key)).pendingSet = true := by
  obtain ⟨a, b, rfl⟩ := List.append_of_mem he
  rw [storeEnds_append, storeEnds]
  exact KeepsPending.storeEnds r b _ _ _ (storeOutcome_noticed (e.outcome r) _)

/-- The outcome of a change in flight that ends for `r`. -/
def InFlight.outcome (c : InFlight) (r : EndReason) : ChangeOutcome :=
  { key := c.key, arrival := c.arrival, value := c.granted, reason := r }

theorem endInFlight_of_none {s : State} (h : s.arb.inFlight = none) (r : EndReason) :
    endInFlight r s = s := by
  rw [endInFlight, h]

theorem endInFlight_of_some {s : State} {c : InFlight} (h : s.arb.inFlight = some c) (r : EndReason) :
    endInFlight r s =
      storeOutcome (c.outcome r)
        (s.setArb { s.arb with inFlight := none, settleCount := 0, settleTimer := none }) := by
  rw [endInFlight, h]
  rfl

theorem endInFlight_outcomes {s : State} {c : InFlight} (h : s.arb.inFlight = some c) (r : EndReason)
    (p : Port) :
    (endInFlight r s).arb.outcomes.get p =
      if p = keyOwner c.key then some (c.outcome r) else s.arb.outcomes.get p := by
  rw [endInFlight_of_some h, storeOutcome_outcomes]
  rfl

theorem endInFlight_noticed {s : State} {c : InFlight} (h : s.arb.inFlight = some c) (r : EndReason) :
    Notice.changeDone.inSet ((endInFlight r s).port (keyOwner c.key)).pendingSet = true := by
  rw [endInFlight_of_some h]
  exact storeOutcome_noticed (c.outcome r) _

/-- The settle counter and timer of a change in flight that ends. -/
theorem endInFlight_settle {s : State} (h : s.arb.inFlight.isSome) (r : EndReason) :
    (endInFlight r s).arb.settleCount = 0 ∧ (endInFlight r s).arb.settleTimer = none := by
  obtain ⟨c, hc⟩ := Option.isSome_iff_exists.mp h
  rw [endInFlight_of_some hc]
  simp

/-! ### The abort (R146) -/

theorem abortChanges_eq (s : State) :
    abortChanges s =
      storeEnds .aborted s.arb.list
        ((endInFlight .aborted s).setArb { (endInFlight .aborted s).arb with list := [] }) := by
  simp [abortChanges, endPending]

theorem abortChanges_outcomes (s : State) : AbortedOutcomes s (abortChanges s) := by
  intro p
  rw [abortChanges_eq]
  refine ⟨fun i e hi he hlast => ?_, fun hnone => ⟨fun c hc hp => ?_, fun hother => ?_⟩⟩
  · obtain ⟨hlt, hget⟩ := List.getElem?_eq_some_iff.mp hi
    have hsplit : s.arb.list = s.arb.list.take i ++ e :: s.arb.list.drop (i + 1) := by
      rw [← hget, ← List.drop_eq_getElem_cons, List.take_append_drop]
    have hafter : ∀ x ∈ s.arb.list.drop (i + 1), keyOwner x.key ≠ keyOwner e.key := by
      intro x hx hxe
      obtain ⟨j, hj⟩ := List.mem_iff_getElem?.mp hx
      rw [List.getElem?_drop] at hj
      have := hlast (i + 1 + j) x hj (hxe.trans he)
      omega
    rw [hsplit, ← he]
    exact storeEnds_outcome_of_last hafter _ _
  · rw [storeEnds_outcome_of_none hnone]
    exact (endInFlight_outcomes hc _ p).trans (if_pos hp.symm)
  · rw [storeEnds_outcome_of_none hnone]
    cases hc : s.arb.inFlight with
    | none => rw [endInFlight_of_none hc]; rfl
    | some c => exact (endInFlight_outcomes hc _ p).trans (if_neg (Ne.symm (hother c hc)))

theorem abortChanges_noticed (s : State) : AbortNoticed s (abortChanges s) := by
  intro p h
  rw [abortChanges_eq]
  rcases h with ⟨e, he, rfl⟩ | ⟨c, hc, rfl⟩
  · exact storeEnds_noticed he _ _
  · exact KeepsPending.storeEnds _ _ _ _ _ (endInFlight_noticed hc .aborted)

/-- The abort stops the settle timer of a change in flight. -/
theorem abortChanges_settle {s : State} (h : s.arb.inFlight.isSome) :
    (abortChanges s).arb.settleCount = 0 ∧ (abortChanges s).arb.settleTimer = none := by
  have hend := endInFlight_settle h .aborted
  rw [abortChanges_eq]
  simpa using hend

/-- What an abort stored is told from the arbiter before it and the outcomes after it. -/
theorem AbortedOutcomes.congr {u v t w : State} (h : AbortedOutcomes u t) (hu : v.arb = u.arb)
    (ht : w.arb.outcomes = t.arb.outcomes) : AbortedOutcomes v w := by
  intro p
  rw [hu, ht]
  exact h p

theorem AbortNoticed.congr {u v t w : State} (h : AbortNoticed u t) (hu : v.arb = u.arb)
    (ht : KeepsPending t w) : AbortNoticed v w := by
  intro p hp
  rw [hu] at hp
  exact ht _ p (h p hp)

/-! ### The parts of a phase change (R81) -/

/-- The state a phase change gives the arbiter: record, notice, lines, counts, p_b, floor duty and envelope are
those of the new phase. -/
def phaseTaken (p : Phase) (c : Cause) (s : State) : State :=
  let s1 := raiseAll .phase (logAppend (.phase s.line.phase p c s.motion.vMeas) s)
  let s2 := setFloorDuty
    ((s1.setLine (lineOnChange s p c)).setBrk (breakOnChange s.line.phase s.brk))
  recompute (setIdle (idleOnChange p s2.env.idle) s2)

theorem phaseWrite_eq {p : Phase} {c : Cause} {s : State} (h : s.line.phase ≠ p) :
    phaseWrite p c s = arbiterPhaseChange s.line.phase p (phaseTaken p c s) := by
  rw [phaseWrite, if_neg h]
  rfl

@[simp] theorem phaseTaken_arb (p : Phase) (c : Cause) (s : State) : (phaseTaken p c s).arb = s.arb := by
  simp [phaseTaken]

@[simp] theorem phaseTaken_prof (p : Phase) (c : Cause) (s : State) :
    (phaseTaken p c s).prof = s.prof := by
  simp [phaseTaken]

@[simp] theorem phaseTaken_line (p : Phase) (c : Cause) (s : State) :
    (phaseTaken p c s).line = lineOnChange s p c := by
  simp [phaseTaken]

theorem phaseTaken_idle (p : Phase) (c : Cause) (s : State) :
    (phaseTaken p c s).env.idle = idleOnChange p s.env.idle := by
  simp [phaseTaken]

theorem phaseTaken_keepsPending (p : Phase) (c : Cause) (s : State) :
    KeepsPending s (phaseTaken p c s) :=
  (KeepsPending.logAppend _ s).trans
    ((KeepsPending.raiseAll .phase _).trans (.after_ports (.recompute _) rfl))

theorem phaseTaken_noticed (p : Phase) (c : Cause) (s : State) (q : Port) :
    Notice.phase.inSet ((phaseTaken p c s).port q).pendingSet = true := by
  refine KeepsPending.recompute _ _ q ?_
  change Notice.phase.inSet ((raiseAll .phase _).port q).pendingSet = true
  simp [raiseAll]

theorem KeepsPending.phaseWrite (p : Phase) (c : Cause) (s : State) :
    KeepsPending s (phaseWrite p c s) := by
  by_cases h : s.line.phase = p
  · rw [phaseWrite_same h]; exact .refl s
  · rw [phaseWrite_eq h]
    exact (phaseTaken_keepsPending p c s).trans (.arbiterPhaseChange _ _ _)

/-- Everything between a command and its pass keeps what is pending. -/
theorem KeepsPending.of_evolves {s t : State} (e : Evolves s t) : KeepsPending s t :=
  e.keepsProp (P := KeepsPending s)
    (fun _ _ _ h => h.trans (.raiseAt _ _ _)) (fun _ _ h => h.trans (.raiseAll _ _))
    (fun _ _ _ h => h.trans (.raiseOthers _ _ _)) (fun _ h => h.trans (.evalWatermarks _))
    (fun _ _ h => h.trans (.logAppend _ _)) (fun _ h => h.trans (.recompute _))
    (fun _ _ h => h.trans (.of_ports rfl)) (fun _ h => h.trans (.of_ports rfl))
    (fun _ _ _ h => h.trans (.of_ports rfl)) (fun _ _ _ h => h.trans (.of_ports rfl))
    (fun _ _ _ _ h => h.trans (.phaseWrite _ _ _)) (.refl s)

section
variable {p : Phase} {c : Cause} {s : State} (h : s.line.phase ≠ p)
include h

theorem phaseWrite_noticed (q : Port) :
    Notice.phase.inSet ((phaseWrite p c s).port q).pendingSet = true := by
  rw [phaseWrite_eq h]
  exact KeepsPending.arbiterPhaseChange _ _ _ _ q (phaseTaken_noticed p c s q)

theorem phaseWrite_idle : (phaseWrite p c s).env.idle = (p.heated && s.env.idle) := by
  have hidle : (phaseWrite p c s).env.idle = idleOnChange p s.env.idle := by
    rw [phaseWrite_eq h, ← phaseTaken_idle p c s]
    exact congrArg Envelope.idle (arbiterPhaseChange_frame _ _ _).2.2.2.2.2.1
  rw [hidle, idleOnChange]
  cases p.heated <;> rfl

/-- Entry to SAFE is an abort (R103). -/
theorem phaseWrite_arb_safe (hp : p = .safe) :
    (phaseWrite p c s).arb.list = [] ∧ (phaseWrite p c s).arb.inFlight = none ∧
      (s.arb.inFlight.isSome →
        (phaseWrite p c s).arb.settleCount = 0 ∧ (phaseWrite p c s).arb.settleTimer = none) ∧
      AbortedOutcomes s (phaseWrite p c s) ∧ AbortNoticed s (phaseWrite p c s) := by
  have heq : phaseWrite p c s = abortChanges (phaseTaken p c s) := by
    rw [phaseWrite_eq h, arbiterPhaseChange, if_pos hp]
  rw [heq]
  have harb := phaseTaken_arb p c s
  obtain ⟨hlist, hflight⟩ := abortChanges_arb (phaseTaken p c s)
  exact ⟨hlist, hflight, fun hs => abortChanges_settle (harb ▸ hs),
    (abortChanges_outcomes _).congr harb.symm rfl, (abortChanges_noticed _).congr harb.symm (.refl _)⟩

/-- Entry to DRAINING holds the ZONE decreases (R134). -/
theorem phaseWrite_arb_draining (hp : p = .draining) :
    (phaseWrite p c s).arb = { s.arb with list := s.arb.list.map (holdEntry (phaseTaken p c s)) } := by
  rw [phaseWrite_eq h, arbiterPhaseChange, if_neg (by simp [hp]), if_pos hp]
  simp

/-- A change out of DRAINING releases the HELD entries (R134). -/
theorem phaseWrite_arb_release (hold : s.line.phase = .draining) (hp : p ≠ .safe) :
    (phaseWrite p c s).arb =
      { s.arb with list := s.arb.list.map (releaseEntry s.waitingStart) } := by
  have hnew : p ≠ .draining := fun e => h (hold.trans e.symm)
  have hstart : (phaseTaken p c s).waitingStart = s.waitingStart := by
    simp [State.waitingStart]
  rw [phaseWrite_eq h, arbiterPhaseChange, if_neg hp, if_neg hnew, if_pos hold, hstart]
  simp

/-- Every other change leaves the arbiter as it was. -/
theorem phaseWrite_arb_other (hold : s.line.phase ≠ .draining) (hp : p ≠ .safe)
    (hd : p ≠ .draining) : (phaseWrite p c s).arb = s.arb := by
  rw [phaseWrite_eq h, arbiterPhaseChange, if_neg hp, if_neg hd, if_neg hold]
  simp

end

/-- With nothing in the list a change to a phase other than SAFE leaves the arbiter as it was. -/
theorem phaseWrite_arb_of_empty {p : Phase} {s : State} (c : Cause) (hl : s.arb.list = [])
    (hp : p ≠ .safe) : (phaseWrite p c s).arb = s.arb := by
  by_cases h : s.line.phase = p
  · rw [phaseWrite_same h]
  · have hsame : { s.arb with list := [] } = s.arb := by rw [← hl]
    by_cases hd : p = .draining
    · rw [phaseWrite_arb_draining h hd, hl]; exact hsame
    · by_cases hold : s.line.phase = .draining
      · rw [phaseWrite_arb_release h hold hp, hl]; exact hsame
      · exact phaseWrite_arb_other h hold hp hd

/-! ### HELD and QUEUED (R134) -/

theorem belowSetpoint_iff (s : State) (key : ChangeKey) (v : Int) :
    belowSetpoint s key v = true ↔ ∃ z, key = .zone z ∧ v < s.line.setpoints.getD z 0 := by
  cases key <;> simp [belowSetpoint, State.setpoint]

end Sys2Proof.Machine
end

section
/-! PROOFS. The phase change taken whole (R81 to R83) and ESTOP (R101 to R103). -/
namespace Sys2Proof.Machine

/-! ### The plant's side, field by field -/

section
variable {s t : State} (h : KeepsPlant s t)
include h

theorem KeepsPlant.time : t.time = s.time := h.1

theorem KeepsPlant.motion : t.motion = s.motion := h.2.1

theorem KeepsPlant.ring : t.ring = s.ring := h.2.2.1

theorem KeepsPlant.flow : t.load.flow = s.load.flow := h.2.2.2.1

theorem KeepsPlant.peak : t.load.peak = s.load.peak := h.2.2.2.2.2.1

theorem KeepsPlant.dets : t.brk.dets = s.brk.dets := h.2.2.2.2.2.2.2.2.2.2.2.1

theorem KeepsPlant.prof : t.prof = s.prof := h.2.2.2.2.2.2.2.2.2.2.2.2.1

theorem KeepsPlant.link (q : Port) : (t.port q).link = (s.port q).link :=
  h.2.2.2.2.2.2.2.2.2.2.2.2.2.2.2 q

end

/-! ### The phase unit's part -/

/-- What a change does to the phase unit's lines and counts, clause by clause. -/
theorem lineOnChange_counts (s : State) (p : Phase) (c : Cause) :
    (lineOnChange s p c).fill = (if s.line.phase = .printing then 0 else s.line.fill) ∧
      (lineOnChange s p c).run = (if s.line.phase = .printing then none else s.line.run) ∧
      (lineOnChange s p c).drain = (if s.line.phase = .draining then 0 else s.line.drain) ∧
      (lineOnChange s p c).mark = s.line.mark ∧
      (lineOnChange s p c).purgeTimer = (if p = .purge then some 100000 else none) ∧
      (lineOnChange s p c).purgeVolume = 0 ∧
      (lineOnChange s p c).speedGrant = s.line.speedGrant ∧
      (lineOnChange s p c).setpoints = s.line.setpoints ∧
      (lineOnChange s p c).exhaust = s.line.exhaust ∧
      (lineOnChange s p c).estopActive = s.line.estopActive :=
  ⟨rfl, rfl, rfl, rfl, rfl, rfl, rfl, rfl, rfl, rfl⟩

/-- The stall grace timer and the excess timer outlast a change within the heated phases alone; at entry to
them the stall grace timer starts where the web is STILL (R81, R94, R96). -/
theorem lineOnChange_timers (s : State) (p : Phase) (c : Cause) :
    (p.heated = false → (lineOnChange s p c).stallGrace = none ∧ (lineOnChange s p c).excess = none) ∧
      (p.heated → s.line.phase.heated →
        (lineOnChange s p c).stallGrace = s.line.stallGrace ∧
          (lineOnChange s p c).excess = s.line.excess) ∧
      (∀ pr, s.prof.committed = some pr → p.heated → s.line.phase.heated = false →
        (lineOnChange s p c).stallGrace =
          (if s.motion.state = .still then some (pr.stallGrace * 1000) else none)) := by
  refine ⟨fun h => ?_, fun h hold => ?_, fun pr hpr h hold => ?_⟩
  · simp [lineOnChange, stallGraceOnChange, h]
  · simp [lineOnChange, stallGraceOnChange, h, hold]
  · simp only [lineOnChange, stallGraceOnChange, h, hold, hpr]
    rfl

/-- The ready result on entry (R86). -/
theorem lineOnChange_ready (s : State) (p : Phase) (c : Cause) :
    (p = .heating ∨ p = .ready ∨ p = .draining → (lineOnChange s p c).ready = s.line.ready) ∧
      (p = .unconfigured ∨ p = .cold ∨ p = .purge ∨ p = .printing ∨ p = .webBreak →
        (lineOnChange s p c).ready = .fails) := by
  constructor
  · rintro (rfl | rfl | rfl) <;> rfl
  · rintro (rfl | rfl | rfl | rfl | rfl) <;> rfl

/-! ### The arbiter's part -/

/-- On entry to DRAINING a QUEUED ZONE decrease is held, its timer stopped. -/
theorem holdEntry_of_lowers {s u : State} (hsp : u.line.setpoints = s.line.setpoints)
    {e : PendingEntry}
    (h : e.status = .queued ∧ ∃ z, e.key = .zone z ∧ e.value < s.line.setpoints.getD z 0) :
    holdEntry u e = { e with status := .held, timer := none } :=
  if_pos ⟨h.1, (belowSetpoint_iff u e.key e.value).mpr (hsp ▸ h.2)⟩

theorem holdEntry_of_stays {s u : State} (hsp : u.line.setpoints = s.line.setpoints)
    {e : PendingEntry}
    (h : ¬(e.status = .queued ∧ ∃ z, e.key = .zone z ∧ e.value < s.line.setpoints.getD z 0)) :
    holdEntry u e = e :=
  if_neg fun hl => h ⟨hl.1, hsp ▸ (belowSetpoint_iff u e.key e.value).mp hl.2⟩

theorem releaseEntry_of_queued {e : PendingEntry} (limit : Timer) (h : e.status = .queued) :
    releaseEntry limit e = e := by
  rw [releaseEntry, if_neg (by simp [h])]

theorem releaseEntry_of_held {e : PendingEntry} (limit : Timer) (h : e.status = .held) :
    releaseEntry limit e = { e with status := .queued, timer := limit } := if_pos h

theorem waitingStart_eq {s : State} {pr : Profile} (h : s.prof.committed = some pr) :
    s.waitingStart = some (pr.pendingLimit * 1000) := by
  rw [State.waitingStart, h]
  rfl

/-- Settles O25: the phase change is its two parts, the machine's (`phaseTaken`) and the arbiter's. -/
theorem phaseChangeEffects : Obligations.PhaseChangeEffects := by
  intro new cause s
  refine ⟨phaseWrite_same, fun h => ?_⟩
  have hline : (phaseWrite new cause s).line = lineOnChange s new cause := phaseWrite_line h
  obtain ⟨hfill, hrun, hdrain, hmark, hpurge, hvolume, hspeed, hpoints, hexhaust, hestop⟩ :=
    lineOnChange_counts s new cause
  obtain ⟨hcold, hhot, hstart⟩ := lineOnChange_timers s new cause
  obtain ⟨hready, hfails⟩ := lineOnChange_ready s new cause
  simp only [hline]
  refine ⟨rfl, rfl, rfl, ?_, hfill, hrun, hdrain, hmark, hcold, hhot, hready, hfails, hpurge,
    hvolume, hspeed, hpoints, hexhaust, hestop, ?_, phaseWrite_dutyCurrent h,
    phaseWrite_envelopeCurrent h, phaseWrite_idle h, phaseWrite_log h, phaseWrite_noticed h, hstart,
    phaseWrite_arb_safe h, fun hd => ?_, fun hold hp => ?_,
    fun hp hd hold => phaseWrite_arb_other h hold hp hd, phaseWrite_frame _ _ _⟩
  · simp [lineOnChange]
  · rw [phaseWrite_brk h, breakOnChange]
    split <;> rfl
  · have harb := phaseWrite_arb_draining (c := cause) h hd
    have hsp : (phaseTaken new cause s).line.setpoints = s.line.setpoints := by
      rw [phaseTaken_line]; exact hpoints
    rw [harb]
    refine ⟨rfl, List.length_map _, fun i e he => ⟨fun hl => ?_, fun hl => ?_⟩⟩
    · rw [List.getElem?_map, he, Option.map_some, holdEntry_of_lowers hsp hl]
    · rw [List.getElem?_map, he, Option.map_some, holdEntry_of_stays hsp hl]
  · rw [phaseWrite_arb_release h hold hp]
    refine ⟨rfl, List.length_map _, fun pr i e hpr he => ⟨fun hs => ?_, fun hs => ?_⟩⟩
    · rw [List.getElem?_map, he, Option.map_some, releaseEntry_of_held _ hs, waitingStart_eq hpr]
    · rw [List.getElem?_map, he, Option.map_some, releaseEntry_of_queued _ hs]

/-! ### ESTOP -/

theorem enterSafe_of_configured {s : State} (h : s.line.phase ≠ .unconfigured) (c : Cause) :
    enterSafe c s = phaseWrite .safe c s := if_neg h

theorem enterSafe_of_unmoved {s : State} (h : s.line.phase = .unconfigured ∨ s.line.phase = .safe)
    (c : Cause) : enterSafe c s = s := by
  rcases h with h | h
  · exact if_pos h
  · rw [enterSafe_of_configured (by simp [h]), phaseWrite_same h]

/-- In a state whose envelope is current, SAFE and BREAK have ceiling and heat caps 0 (R65, R73). -/
theorem stopped_envelope {s : State} (he : EnvelopeCurrent s)
    (h : s.line.phase = .safe ∨ s.line.phase = .webBreak) :
    s.env.ceiling = 0 ∧ (∀ c ∈ s.env.heatCaps, c = 0) ∧
      ∀ pr, s.prof.committed = some pr → 0 < pr.speedMax → s.env.limiter = .phase := by
  obtain ⟨hceiling, hlimiter⟩ := envelopeOf_of_stopped h
  have henv : s.env = envelopeOf s := he
  rw [henv]
  exact ⟨hceiling, envelopeOf_cold (by rcases h with h | h <;> rw [h] <;> rfl), hlimiter⟩

/-- Appending goes by the log, the instant and the ports' WATERMARKs, as far as the log itself is concerned by
log and instant alone. -/
theorem logAppend_log_congr (b : LogBody) {s t : State} (hl : t.log = s.log) (ht : t.time = s.time) :
    (logAppend b t).log = (logAppend b s).log := by
  unfold logAppend
  rw [hl]
  split
  · simp
  · simp [hl, ht]
  · dsimp only
    split <;> simp [hl, ht]

/-- ESTOP held ACTIVE. -/
def estopHeld (s : State) : State := s.setLine { s.line with estopActive := true }

theorem exec_estopActivation (s : State) :
    exec .estopActivation s =
      if s.line.estopActive then .next s else .next (enterSafe .estop (estopHeld s)) := rfl

/-- Settles O32: an activation is the level written and then a change to SAFE taken whole. -/
theorem estopTakesSafe : Obligations.EstopTakesSafe := by
  refine ⟨fun _ => rfl, fun s h => ?_, fun s h hp => ?_, fun s h hu hs => ?_⟩
  · rw [exec_estopActivation, if_pos h]
  · rw [exec_estopActivation, if_neg (by simp [h]), enterSafe_of_unmoved (s := estopHeld s) hp]
    rfl
  · have hs' : (estopHeld s).line.phase ≠ .safe := hs
    have hphase := phaseWrite_phase .safe .estop (estopHeld s)
    have hline := phaseWrite_line (c := .estop) hs'
    have hframe := phaseWrite_frame .safe .estop (estopHeld s)
    obtain ⟨hceiling, hcaps, hlimiter⟩ :=
      stopped_envelope (phaseWrite_envelopeCurrent (c := .estop) hs') (.inl hphase)
    obtain ⟨hlist, hflight, -, hout, hnoticed⟩ := phaseWrite_arb_safe (c := .estop) hs' rfl
    have hduty : (phaseWrite .safe .estop (estopHeld s)).load.floorDuty = 256 :=
      (phaseWrite_dutyCurrent hs').trans (floorDuty_forced (.inr (.inr hphase)))
    have hidle : (phaseWrite .safe .estop (estopHeld s)).env.idle = false := phaseWrite_idle hs'
    have hlog : (phaseWrite .safe .estop (estopHeld s)).log =
        (logAppend (.phase s.line.phase .safe .estop s.motion.vMeas) s).log :=
      (phaseWrite_log hs').trans (logAppend_log_congr _ rfl rfl)
    refine ⟨phaseWrite .safe .estop (estopHeld s), ?_, ?_⟩
    · rw [exec_estopActivation, if_neg (by simp [h]), enterSafe_of_configured (s := estopHeld s) hu]
    · rw [hline]
      exact ⟨rfl, rfl, rfl, rfl, rfl, rfl, rfl, rfl, rfl, rfl, rfl, rfl, rfl, hlist, hflight,
        hout.congr rfl rfl, hnoticed.congr rfl (.refl _), hduty, hceiling, hidle, hcaps,
        fun pr hpr => hlimiter pr (hframe.prof ▸ hpr), hlog, hframe⟩

end Sys2Proof.Machine
end

section
/-! PROOFS. The ready test and what an evaluation of it can change (R86, R87). -/
namespace Sys2Proof.Machine

/-! ### The test -/

theorem zonesInTolerance_iff (es : List ZoneItems) (inputs setpoints : List Int) :
    zonesInTolerance es inputs setpoints = true ↔
      ∀ (z : Nat) (e : ZoneItems), es[z]? = some e →
        (inputs.getD z 0 - setpoints.getD z 0).natAbs ≤ e.tol := by
  induction es generalizing inputs setpoints with
  | nil => simp [zonesInTolerance]
  | cons e es ih =>
    have hhead : ∀ l : List Int, l.headD 0 = l.getD 0 0 := fun l => by cases l <;> rfl
    have htail : ∀ (l : List Int) (z : Nat), l.tail.getD z 0 = l.getD (z + 1) 0 :=
      fun l z => by cases l <;> simp
    rw [zonesInTolerance, Bool.and_eq_true, decide_eq_true_iff, ih]
    simp only [hhead, htail]
    refine ⟨fun ⟨h0, hs⟩ z x hz => ?_, fun h => ⟨h 0 e rfl, fun z x hz => h (z + 1) x hz⟩⟩
    cases z with
    | zero => exact Option.some.inj hz ▸ h0
    | succ z => exact hs z x hz

theorem rolls_all_iff (pr : Profile) (inputs : List Int) (limit : Int) :
    (rollsOf pr inputs).all (fun r => decide (r.temp ≤ limit)) = true ↔
      ∀ (c : Nat) (e : ZoneItems) (a : Int), pr.chills[c]? = some e →
        inputs[pr.dryers.length + c]? = some a → a ≤ limit := by
  rw [List.all_eq_true]
  refine ⟨fun h c e a he ha => ?_, fun h r hr => ?_⟩
  · have hr := h _ (List.mem_iff_getElem?.mpr ⟨c, rollsOf_getElem? he ha⟩)
    exact of_decide_eq_true hr
  · obtain ⟨c, hc⟩ := List.mem_iff_getElem?.mp hr
    obtain ⟨e, a, he, ha, rfl⟩ := List.getElem?_zipWith_eq_some.mp hc
    rw [List.getElem?_drop] at ha
    exact decide_eq_true (h c e a he ha)

theorem isReady_eq {s : State} {pr : Profile} (h : s.prof.committed = some pr) :
    s.isReady = readyTest pr s := by
  rw [State.isReady, h]

/-- The test goes by the profile, the zone inputs, the setpoints and the flow. -/
theorem isReady_congr {s t : State} (hp : t.prof = s.prof) (hi : t.ring.inputs = s.ring.inputs)
    (hs : t.line.setpoints = s.line.setpoints) (hf : t.load.flow = s.load.flow) :
    t.isReady = s.isReady := by
  simp only [State.isReady, readyTest, hp, hi, hs, hf]

theorem phaseWrite_records (p : Phase) (c : Cause) (s : State) :
    (phaseWrite p c s).line.speedGrant = s.line.speedGrant ∧
      (phaseWrite p c s).line.exhaust = s.line.exhaust ∧
      (phaseWrite p c s).line.setpoints = s.line.setpoints := by
  by_cases h : s.line.phase = p
  · rw [phaseWrite_same h]; exact ⟨rfl, rfl, rfl⟩
  · rw [phaseWrite_line h]; exact ⟨rfl, rfl, rfl⟩

@[simp] theorem phaseWrite_isReady (p : Phase) (c : Cause) (s : State) :
    (phaseWrite p c s).isReady = s.isReady := by
  have hframe := phaseWrite_frame p c s
  exact isReady_congr hframe.prof (congrArg Ring.inputs hframe.ring) (phaseWrite_records p c s).2.2
    hframe.flow

/-! ### The evaluation, case by case -/

/-- The ready result after a test with outcome `b`. -/
@[simp] theorem writeReady_ready (b : Bool) (s : State) :
    (writeReady b s).line.ready = if b then .holds else .fails := rfl

@[simp] theorem writeReady_phase (b : Bool) (s : State) :
    (writeReady b s).line.phase = s.line.phase := rfl

theorem enterHeating_of_ready {c : Cause} {s : State} (h : s.isReady = true) :
    enterHeating c s = phaseWrite .ready .readyMet (writeReady true (phaseWrite .heating c s)) := by
  simp [enterHeating, h]

theorem enterHeating_of_unready {c : Cause} {s : State} (h : s.isReady = false) :
    enterHeating c s = writeReady false (phaseWrite .heating c s) := by
  simp [enterHeating, h]

theorem evaluateReady_of_heating {s : State} (h : s.line.phase = .heating) :
    evaluateReady s =
      if s.isReady then phaseWrite .ready .readyMet (writeReady true s) else writeReady false s := by
  unfold evaluateReady
  rw [h]
  cases s.isReady <;> rfl

theorem evaluateReady_of_ready {s : State} (h : s.line.phase = .ready) :
    evaluateReady s =
      if s.isReady then writeReady true s else enterHeating .readyLost (writeReady false s) := by
  unfold evaluateReady
  rw [h]
  cases s.isReady <;> rfl

theorem evaluateReady_of_draining {s : State} (h : s.line.phase = .draining) :
    evaluateReady s = writeReady s.isReady s := by
  unfold evaluateReady
  rw [h]

theorem evaluateReady_of_other {s : State} (hh : s.line.phase ≠ .heating) (hr : s.line.phase ≠ .ready)
    (hd : s.line.phase ≠ .draining) : evaluateReady s = s := by
  unfold evaluateReady
  split <;> first | rfl | contradiction

/-- In HEATING the result, once a test has written it, is the one a change to READY keeps. -/
theorem phaseWrite_ready_keepsResult {s : State} (c : Cause) (h : s.line.phase ≠ .ready) :
    (phaseWrite .ready c s).line.ready = s.line.ready := by
  rw [phaseWrite_line h]
  rfl

/-- Settles O33: the three conjuncts of the test, and the evaluation phase by phase. -/
theorem readyTestRule : Obligations.ReadyTestRule := by
  intro pr s hp
  have hready := isReady_eq hp
  refine ⟨?_, fun h ht => ?_, fun h ht => ?_, fun h ht => ?_, fun h ht => ?_, fun h => ?_,
    fun hh hr hd => evaluateReady_of_other hh hr hd⟩
  · rw [readyTest, Bool.and_eq_true, Bool.and_eq_true, zonesInTolerance_iff, decide_eq_true_iff,
      rolls_all_iff]
    exact and_assoc
  · have hne : (writeReady true s).line.phase ≠ .ready := by simp [h]
    rw [evaluateReady_of_heating h, hready, ht, if_pos rfl]
    refine ⟨phaseWrite_phase _ _ _, ?_, phaseWrite_ready_keepsResult _ hne⟩
    rw [phaseWrite_line hne]
    rfl
  · rw [evaluateReady_of_heating h, hready, ht]
    rfl
  · rw [evaluateReady_of_ready h, hready, ht]
    rfl
  · have hne : (writeReady false s).line.phase ≠ .heating := by simp [h]
    have hunready : (writeReady false s).isReady = false :=
      (isReady_congr rfl rfl rfl rfl).trans (hready.trans ht)
    rw [evaluateReady_of_ready h, hready, ht, if_neg Bool.false_ne_true,
      enterHeating_of_unready hunready]
    refine ⟨phaseWrite_phase .heating .readyLost (writeReady false s), ?_, rfl, ?_⟩
    · exact congrArg PhaseUnit.cause (phaseWrite_line (c := .readyLost) hne)
    · exact congrArg PhaseUnit.permit (phaseWrite_line (c := .readyLost) hne)
  · rw [evaluateReady_of_draining h, hready]
    rfl

/-! ### What an evaluation can change -/

/-- The phases the ready test moves between: HEATING and READY. -/
def Phase.tested (p : Phase) : Bool := p == .heating || p == .ready

theorem tested_iff (p : Phase) : p.tested = true ↔ p = .heating ∨ p = .ready := by
  simp [Phase.tested]

/-- `t` is `s` after granted records were written, the envelope recomputed, the arbiter moved and the ready test
evaluated: the phase changes between HEATING and READY alone, and every count, the grace timers, the idle flag
and the break unit stay. -/
structure Rechecked (s t : State) : Prop where
  idle : t.env.idle = s.env.idle
  brk : t.brk = s.brk
  tested : s.line.phase.tested → t.line.phase.tested
  line : s.line.phase.tested = false →
    t.line.phase = s.line.phase ∧ t.line.cause = s.line.cause ∧
      t.line.heatInhibit = s.line.heatInhibit ∧ t.line.permit = s.line.permit ∧
      t.line.purgeTimer = s.line.purgeTimer ∧ t.line.purgeVolume = s.line.purgeVolume
  counts : t.line.fill = s.line.fill ∧ t.line.run = s.line.run ∧ t.line.drain = s.line.drain ∧
    t.line.mark = s.line.mark ∧ t.line.stallGrace = s.line.stallGrace ∧
    t.line.excess = s.line.excess ∧ t.line.estopActive = s.line.estopActive
  purge : (s.line.purgeTimer = none → t.line.purgeTimer = none) ∧
    (s.line.purgeVolume = 0 → t.line.purgeVolume = 0)
  log : s.line.phase.tested = false → t.log = s.log

namespace Rechecked

variable {s t u : State}

theorem refl (s : State) : Rechecked s s :=
  ⟨rfl, rfl, id, fun _ => ⟨rfl, rfl, rfl, rfl, rfl, rfl⟩, ⟨rfl, rfl, rfl, rfl, rfl, rfl, rfl⟩,
    ⟨id, id⟩, fun _ => rfl⟩

theorem trans (h : Rechecked s t) (k : Rechecked t u) : Rechecked s u := by
  have hstill : s.line.phase.tested = false → t.line.phase.tested = false := fun hs =>
    (congrArg Phase.tested (h.line hs).1).trans hs
  obtain ⟨hf, hr, hd, hm, hsg, hx, he⟩ := h.counts
  obtain ⟨kf, kr, kd, km, ksg, kx, ke⟩ := k.counts
  refine ⟨k.idle.trans h.idle, k.brk.trans h.brk, k.tested ∘ h.tested, fun hs => ?_,
    ⟨kf.trans hf, kr.trans hr, kd.trans hd, km.trans hm, ksg.trans hsg, kx.trans hx, ke.trans he⟩,
    ⟨k.purge.1 ∘ h.purge.1, k.purge.2 ∘ h.purge.2⟩, fun hs => (k.log (hstill hs)).trans (h.log hs)⟩
  obtain ⟨hp, hc, hi, hpm, ht, hv⟩ := h.line hs
  obtain ⟨kp, kc, ki, kpm, kt, kv⟩ := k.line (hstill hs)
  exact ⟨kp.trans hp, kc.trans hc, ki.trans hi, kpm.trans hpm, kt.trans ht, kv.trans hv⟩

/-- An operation that leaves the phase unit, the log, the break unit and the idle flag alone. -/
theorem of_eq (hidle : t.env.idle = s.env.idle) (hbrk : t.brk = s.brk) (hline : t.line = s.line)
    (hlog : t.log = s.log) : Rechecked s t := by
  refine ⟨hidle, hbrk, ?_, ?_, ?_, ?_, fun _ => hlog⟩ <;> rw [hline]
  · exact id
  · exact fun _ => ⟨rfl, rfl, rfl, rfl, rfl, rfl⟩
  · exact ⟨rfl, rfl, rfl, rfl, rfl, rfl, rfl⟩
  · exact ⟨id, id⟩

theorem recompute (s : State) : Rechecked s (recompute s) := by
  apply of_eq <;> simp

theorem of_arbiter (h : ArbiterOnly s t) : Rechecked s t := by
  obtain ⟨-, -, -, -, -, henv, hline, hbrk, hlog, -⟩ := h
  exact of_eq (congrArg Envelope.idle henv) hbrk hline hlog

theorem setArb (s : State) (a : Arbiter) : Rechecked s (s.setArb a) := of_eq rfl rfl rfl rfl

theorem putRecord (key : ChangeKey) (v : Int) (s : State) :
    Rechecked s (s.setLine (s.line.putRecord key v)) := by
  cases key <;>
    exact ⟨rfl, rfl, id, fun _ => ⟨rfl, rfl, rfl, rfl, rfl, rfl⟩,
      ⟨rfl, rfl, rfl, rfl, rfl, rfl, rfl⟩, ⟨id, id⟩, fun _ => rfl⟩

theorem writeReady (b : Bool) (s : State) : Rechecked s (writeReady b s) :=
  ⟨rfl, rfl, id, fun _ => ⟨rfl, rfl, rfl, rfl, rfl, rfl⟩, ⟨rfl, rfl, rfl, rfl, rfl, rfl, rfl⟩,
    ⟨id, id⟩, fun _ => rfl⟩

/-- A change between the tested phases. -/
theorem phaseWrite {p : Phase} (c : Cause) (hs : s.line.phase.tested = true) (hp : p.tested = true) :
    Rechecked s (phaseWrite p c s) := by
  by_cases h : s.line.phase = p
  · rw [phaseWrite_same h]; exact refl s
  · have hheated : ∀ q : Phase, q.tested = true → q.heated = true := by
      intro q hq
      rcases (tested_iff q).mp hq with rfl | rfl <;> rfl
    have hold : s.line.phase ≠ .printing ∧ s.line.phase ≠ .draining ∧ s.line.phase ≠ .webBreak := by
      rcases (tested_iff _).mp hs with h | h <;> simp [h]
    obtain ⟨hnp, hnd, hnb⟩ := hold
    have hpurge : p ≠ .purge := by rcases (tested_iff p).mp hp with rfl | rfl <;> simp
    refine ⟨?_, ?_, fun _ => ?_, fun hn => ?_, ?_, ?_, fun hn => ?_⟩
    · rw [phaseWrite_idle h, hheated p hp, Bool.true_and]
    · rw [phaseWrite_brk h, breakOnChange, if_neg hnb]
    · rw [phaseWrite_phase]; exact hp
    · exact absurd hs (by simp [hn])
    · rw [phaseWrite_line h]
      obtain ⟨-, hkeep, -⟩ := lineOnChange_timers s p c
      obtain ⟨hgrace, hexcess⟩ := hkeep (hheated p hp) (hheated _ hs)
      exact ⟨if_neg hnp, if_neg hnp, if_neg hnd, rfl, hgrace, hexcess, rfl⟩
    · rw [phaseWrite_line h]
      exact ⟨fun _ => if_neg hpurge, fun _ => rfl⟩
    · exact absurd hs (by simp [hn])

theorem enterHeating (c : Cause) (hs : s.line.phase.tested = true) :
    Rechecked s (enterHeating c s) := by
  have hheating := phaseWrite (p := .heating) c hs rfl
  cases hr : s.isReady with
  | false =>
    rw [enterHeating_of_unready hr]
    exact hheating.trans (writeReady _ _)
  | true =>
    rw [enterHeating_of_ready hr]
    exact (hheating.trans (writeReady _ _)).trans
      (phaseWrite _ ((hheating.trans (writeReady _ _)).tested hs) rfl)

theorem evaluateReady (s : State) : Rechecked s (evaluateReady s) := by
  by_cases hh : s.line.phase = .heating
  · have hs : (Machine.writeReady true s).line.phase.tested = true := (tested_iff _).mpr (.inl hh)
    rw [evaluateReady_of_heating hh]
    split
    · exact (writeReady true s).trans (phaseWrite _ hs rfl)
    · exact writeReady false s
  · by_cases hr : s.line.phase = .ready
    · have hs : (Machine.writeReady false s).line.phase.tested = true := (tested_iff _).mpr (.inr hr)
      rw [evaluateReady_of_ready hr]
      split
      · exact writeReady true s
      · exact (writeReady false s).trans (enterHeating _ hs)
    · by_cases hd : s.line.phase = .draining
      · rw [evaluateReady_of_draining hd]; exact writeReady _ s
      · rw [evaluateReady_of_other hh hr hd]; exact refl s

theorem writeRecord (key : ChangeKey) (v : Int) (s : State) : Rechecked s (writeRecord key v s) := by
  have h := (putRecord key v s).trans (recompute _)
  cases key with
  | speed => exact h
  | exhaust => exact h
  | zone z => exact h.trans (evaluateReady _)
  | chill c => exact h.trans (evaluateReady _)

theorem arbiterPass (s : State) : Rechecked s (arbiterPass s) := by
  unfold Machine.arbiterPass
  split
  · split
    · exact (setArb s _).trans (writeRecord _ _ _)
    · exact refl s
  · exact refl s
  · exact refl s

theorem endInFlight (r : EndReason) (s : State) : Rechecked s (endInFlight r s) :=
  of_arbiter (endInFlight_frame r s)

theorem endPending (f : PendingEntry → Bool) (r : EndReason) (s : State) :
    Rechecked s (endPending f r s) := of_arbiter (endPending_frame f r s)

theorem settleSpeed (pr : Profile) (c : InFlight) (s : State) : Rechecked s (settleSpeed pr c s) := by
  have hend := (endInFlight .settled s).trans (arbiterPass _)
  unfold Machine.settleSpeed
  dsimp only
  split
  · exact hend
  · split
    · exact (setArb s _).trans (writeRecord _ _ _)
    · split
      · exact hend
      · exact (setArb s _).trans (arbiterPass _)

theorem settleChange (pr : Profile) (c : InFlight) (s : State) : Rechecked s (settleChange pr c s) := by
  unfold Machine.settleChange
  split
  · exact settleSpeed _ _ _
  · exact (endInFlight _ _).trans (arbiterPass _)

theorem settleObserve (o : Observation) (s : State) : Rechecked s (settleObserve o s) := by
  unfold Machine.settleObserve
  split
  · split
    · dsimp only
      split
      · exact (setArb s _).trans (settleChange _ _ _)
      · exact setArb s _
    · exact setArb s _
    · exact refl s
  · exact refl s
  · exact refl s

end Rechecked

/-! ### An evaluation and the arbiter, the records -/

theorem writeReady_records (b : Bool) (s : State) :
    (writeReady b s).line.speedGrant = s.line.speedGrant ∧
      (writeReady b s).line.exhaust = s.line.exhaust ∧
      (writeReady b s).line.setpoints = s.line.setpoints := ⟨rfl, rfl, rfl⟩

/-- A change between the tested phases leaves the arbiter alone. -/
theorem phaseWrite_arb_of_tested {p : Phase} {s : State} (c : Cause)
    (hs : s.line.phase.tested = true) (hp : p.tested = true) : (phaseWrite p c s).arb = s.arb := by
  by_cases h : s.line.phase = p
  · rw [phaseWrite_same h]
  · refine phaseWrite_arb_other h ?_ ?_ ?_
    · rcases (tested_iff _).mp hs with h | h <;> simp [h]
    · rcases (tested_iff _).mp hp with h | h <;> simp [h]
    · rcases (tested_iff _).mp hp with h | h <;> simp [h]

/-- A change to HEATING keeps the granted records. -/
theorem enterHeating_records (c : Cause) (s : State) :
    (enterHeating c s).line.speedGrant = s.line.speedGrant ∧
      (enterHeating c s).line.exhaust = s.line.exhaust ∧
      (enterHeating c s).line.setpoints = s.line.setpoints := by
  have h := phaseWrite_records .heating c s
  cases hr : s.isReady with
  | false => rw [enterHeating_of_unready hr]; exact h
  | true =>
    rw [enterHeating_of_ready hr]
    obtain ⟨hs, he, hp⟩ := phaseWrite_records .ready .readyMet
      (writeReady true (phaseWrite .heating c s))
    exact ⟨hs.trans h.1, he.trans h.2.1, hp.trans h.2.2⟩

theorem enterHeating_arb_of_tested {s : State} (c : Cause) (hs : s.line.phase.tested = true) :
    (enterHeating c s).arb = s.arb := by
  have h := phaseWrite_arb_of_tested (p := .heating) c hs rfl
  cases hr : s.isReady with
  | false => rw [enterHeating_of_unready hr]; exact h
  | true =>
    rw [enterHeating_of_ready hr]
    refine (phaseWrite_arb_of_tested .readyMet ?_ rfl).trans h
    exact (Rechecked.phaseWrite (p := .heating) c hs rfl).tested hs

/-- An evaluation of the ready test keeps the granted records and the arbiter. -/
theorem evaluateReady_keeps (s : State) :
    (evaluateReady s).arb = s.arb ∧ (evaluateReady s).line.speedGrant = s.line.speedGrant ∧
      (evaluateReady s).line.exhaust = s.line.exhaust ∧
      (evaluateReady s).line.setpoints = s.line.setpoints := by
  by_cases hh : s.line.phase = .heating
  · rw [evaluateReady_of_heating hh]
    split
    · exact ⟨phaseWrite_arb_of_tested _ ((tested_iff _).mpr (.inl hh)) rfl,
        phaseWrite_records .ready .readyMet (writeReady true s)⟩
    · exact ⟨rfl, rfl, rfl, rfl⟩
  · by_cases hr : s.line.phase = .ready
    · rw [evaluateReady_of_ready hr]
      split
      · exact ⟨rfl, rfl, rfl, rfl⟩
      · exact ⟨enterHeating_arb_of_tested _ ((tested_iff _).mpr (.inr hr)),
          enterHeating_records .readyLost (writeReady false s)⟩
    · by_cases hd : s.line.phase = .draining
      · rw [evaluateReady_of_draining hd]; exact ⟨rfl, rfl, rfl, rfl⟩
      · rw [evaluateReady_of_other hh hr hd]; exact ⟨rfl, rfl, rfl, rfl⟩

/-- After an evaluation in a tested phase the phase says whether the test holds. -/
theorem evaluateReady_phase {s : State} (h : s.line.phase.tested = true) :
    (evaluateReady s).line.phase = if s.isReady then .ready else .heating := by
  rcases (tested_iff _).mp h with h | h
  · rw [evaluateReady_of_heating h]
    split
    · exact phaseWrite_phase _ _ _
    · exact h
  · rw [evaluateReady_of_ready h]
    cases hr : s.isReady with
    | true => exact h
    | false =>
      have hunready : (writeReady false s).isReady = false :=
        (isReady_congr rfl rfl rfl rfl).trans hr
      rw [if_neg Bool.false_ne_true, enterHeating_of_unready hunready]
      exact phaseWrite_phase .heating .readyLost (writeReady false s)

end Sys2Proof.Machine
end

section
/-! PROOFS. The arbiter: candidates, the pass and the grant (R138, R139), headroom (R136, R137). -/
namespace Sys2Proof.Machine

/-! ### Zones of the map -/

theorem used_of_dryer {pr : Profile} {z : Nat} {e : ZoneItems} (h : pr.dryers[z]? = some e) :
    pr.used[z]? = some e := by
  obtain ⟨hlt, he⟩ := List.getElem?_eq_some_iff.mp h
  exact (List.prefix_iff_getElem?.mp (List.takeWhile_prefix _) z hlt).trans (congrArg some he)

theorem zoneOr_of_used {pr : Profile} {z : Nat} {e : ZoneItems} (h : pr.used[z]? = some e) :
    pr.zoneOr z = e := by
  rw [Profile.zoneOr, Profile.usedZone, h]
  rfl

/-! ### Candidates -/

/-- A candidate is a QUEUED entry with headroom, at its place. -/
theorem mem_candidatesFrom {pr : Profile} {s : State} {i : Nat} {l : List PendingEntry}
    {c : Candidate} :
    c ∈ candidatesFrom pr s i l ↔
      ∃ j, c.index = i + j ∧ l[j]? = some c.entry ∧ c.entry.status = .queued ∧
        headroom pr s c.entry.key c.entry.value = some c.granted := by
  induction l generalizing i with
  | nil => simp [candidatesFrom]
  | cons e l ih =>
    have hrest : (∃ j, c.index = i + 1 + j ∧ l[j]? = some c.entry ∧ c.entry.status = .queued ∧
          headroom pr s c.entry.key c.entry.value = some c.granted) ↔
        ∃ j, c.index = i + (j + 1) ∧ (e :: l)[j + 1]? = some c.entry ∧ c.entry.status = .queued ∧
          headroom pr s c.entry.key c.entry.value = some c.granted := by
      simp only [List.getElem?_cons_succ, Nat.add_assoc, Nat.add_comm 1]
    have hsplit : ∀ P : Nat → Prop, (∃ j, P j) ↔ P 0 ∨ ∃ j, P (j + 1) := fun P =>
      ⟨fun ⟨j, hj⟩ => by cases j with
        | zero => exact .inl hj
        | succ j => exact .inr ⟨j, hj⟩,
       fun h => h.elim (fun h => ⟨0, h⟩) (fun ⟨j, hj⟩ => ⟨j + 1, hj⟩)⟩
    rw [hsplit, ← hrest, ← ih, candidatesFrom]
    split
    · next g hs hg =>
      rw [List.mem_cons]
      refine or_congr ⟨?_, ?_⟩ Iff.rfl
      · rintro rfl
        exact ⟨rfl, rfl, hs, hg⟩
      · rintro ⟨hi, he, -, hc⟩
        obtain rfl := Option.some.inj he
        obtain rfl := Option.some.inj (hg.symm.trans hc)
        cases c
        exact congrArg (Candidate.mk · _ _) hi
    · next hs hg =>
      refine ⟨.inr, fun h => h.elim (fun ⟨_, he, _, hc⟩ => ?_) id⟩
      obtain rfl := Option.some.inj he
      exact absurd (hg.symm.trans hc) (by simp)
    · next hs =>
      refine ⟨.inr, fun h => h.elim (fun ⟨_, he, hq, _⟩ => ?_) id⟩
      obtain rfl := Option.some.inj he
      exact absurd (hs.symm.trans hq) (by simp)

theorem candidatesFrom_sorted (pr : Profile) (s : State) (i : Nat) (l : List PendingEntry) :
    (candidatesFrom pr s i l).Pairwise (fun c d => c.index < d.index) := by
  induction l generalizing i with
  | nil => exact .nil
  | cons e l ih =>
    unfold candidatesFrom
    split
    · refine .cons (fun d hd => ?_) (ih (i + 1))
      obtain ⟨j, hj, -⟩ := mem_candidatesFrom.mp hd
      exact (by omega : i < d.index)
    · exact ih (i + 1)
    · exact ih (i + 1)

/-- The best candidate: none beats it, and of its equals it is the first. -/
theorem bestCandidate_spec (pr : Profile) {l : List Candidate} {c : Candidate}
    (h : bestCandidate pr l = some c) :
    ∃ a b, l = a ++ c :: b ∧ (∀ d ∈ a, priorityOf pr d.entry.key < priorityOf pr c.entry.key) ∧
      ∀ d ∈ b, priorityOf pr d.entry.key ≤ priorityOf pr c.entry.key := by
  induction l generalizing c with
  | nil => exact absurd h (by simp [bestCandidate])
  | cons x l ih =>
    cases hl : bestCandidate pr l with
    | none =>
      obtain rfl : x = c := by simpa [bestCandidate, hl] using h
      have hnil : l = [] := by
        cases l with
        | nil => rfl
        | cons y l =>
          unfold bestCandidate at hl
          split at hl
          · simp at hl
          · split at hl <;> simp at hl
      exact ⟨[], l, rfl, fun _ hd => absurd hd (by simp), fun d hd => absurd hd (by simp [hnil])⟩
    | some d =>
      obtain ⟨a, b, rfl, ha, hb⟩ := ih hl
      by_cases hlt : priorityOf pr x.entry.key < priorityOf pr d.entry.key
      · obtain rfl : d = c := by simpa [bestCandidate, hl, hlt] using h
        exact ⟨x :: a, b, rfl, List.forall_mem_cons.mpr ⟨hlt, ha⟩, hb⟩
      · obtain rfl : x = c := by simpa [bestCandidate, hl, hlt] using h
        have hle := Nat.le_of_not_lt hlt
        refine ⟨[], _, rfl, fun _ hd => absurd hd (by simp), fun y hy => ?_⟩
        rcases List.mem_append.mp hy with hy | hy
        · exact (Nat.le_of_lt (ha y hy)).trans hle
        · rcases List.mem_cons.mp hy with rfl | hy
          · exact hle
          · exact (hb y hy).trans hle

theorem bestCandidate_eq_none {pr : Profile} {l : List Candidate} (h : bestCandidate pr l = none) :
    l = [] := by
  cases l with
  | nil => rfl
  | cons x l =>
    unfold bestCandidate at h
    split at h
    · simp at h
    · split at h <;> simp at h

/-- Entry `i` of the list is QUEUED and has headroom for `g`. -/
def MayGrant (pr : Profile) (s : State) (i : Nat) (e : PendingEntry) (g : Int) : Prop :=
  s.arb.list[i]? = some e ∧ e.status = .queued ∧ headroom pr s e.key e.value = some g

theorem mem_candidates {pr : Profile} {s : State} {c : Candidate} :
    c ∈ candidatesFrom pr s 0 s.arb.list ↔ MayGrant pr s c.index c.entry c.granted := by
  rw [mem_candidatesFrom]
  refine ⟨fun ⟨j, hj, h⟩ => ?_, fun h => ⟨c.index, (Nat.zero_add _).symm, h⟩⟩
  rw [Nat.zero_add] at hj
  exact hj ▸ h

/-! ### A write of a record -/

theorem writeRecord_keeps (key : ChangeKey) (v : Int) (s : State) :
    (writeRecord key v s).arb = s.arb ∧
      (writeRecord key v s).line.speedGrant = (s.line.putRecord key v).speedGrant ∧
      (writeRecord key v s).line.exhaust = (s.line.putRecord key v).exhaust ∧
      (writeRecord key v s).line.setpoints = (s.line.putRecord key v).setpoints := by
  have h : ∀ u : State, (recompute u).arb = u.arb ∧ (recompute u).line = u.line := by simp
  obtain ⟨harb, hline⟩ := h (s.setLine (s.line.putRecord key v))
  have hw : ∀ u : State, u = recompute (s.setLine (s.line.putRecord key v)) →
      (evaluateReady u).arb = s.arb ∧
        (evaluateReady u).line.speedGrant = (s.line.putRecord key v).speedGrant ∧
        (evaluateReady u).line.exhaust = (s.line.putRecord key v).exhaust ∧
        (evaluateReady u).line.setpoints = (s.line.putRecord key v).setpoints := by
    rintro u rfl
    obtain ⟨ha, hs, he, hp⟩ := evaluateReady_keeps (recompute (s.setLine (s.line.putRecord key v)))
    rw [hline] at hs he hp
    exact ⟨ha.trans harb, hs, he, hp⟩
  cases key with
  | speed => exact ⟨harb, by rw [writeRecord, hline]; exact ⟨rfl, rfl, rfl⟩⟩
  | exhaust => exact ⟨harb, by rw [writeRecord, hline]; exact ⟨rfl, rfl, rfl⟩⟩
  | zone z => exact hw _ rfl
  | chill c => exact hw _ rfl

/-! ### The pass, case by case -/

theorem arbiterPass_of_flight {s : State} (h : s.arb.inFlight ≠ none) : arbiterPass s = s := by
  unfold arbiterPass
  split
  · contradiction
  · rfl
  · rfl

theorem arbiterPass_of_uncommitted {s : State} (h : s.prof.committed = none) : arbiterPass s = s := by
  unfold arbiterPass
  split
  · next hp _ => exact absurd (h.symm.trans hp) (by simp)
  · rfl
  · rfl

theorem arbiterPass_of_best {pr : Profile} {s : State} (hp : s.prof.committed = some pr)
    (hf : s.arb.inFlight = none) :
    arbiterPass s =
      match bestCandidate pr (candidatesFrom pr s 0 s.arb.list) with
      | some c => grantChange pr c s
      | none => s := by
  unfold arbiterPass
  simp only [hp, hf] <;> rfl

/-- A pass does nothing, or grants its best candidate. -/
theorem arbiterPass_cases (s : State) :
    arbiterPass s = s ∨
      ∃ pr c, s.prof.committed = some pr ∧ s.arb.inFlight = none ∧
        MayGrant pr s c.index c.entry c.granted ∧ arbiterPass s = grantChange pr c s := by
  cases hp : s.prof.committed with
  | none => exact .inl (arbiterPass_of_uncommitted hp)
  | some pr =>
    cases hf : s.arb.inFlight with
    | some c => exact .inl (arbiterPass_of_flight (by simp [hf]))
    | none =>
      have heq := arbiterPass_of_best hp hf
      cases hbest : bestCandidate pr (candidatesFrom pr s 0 s.arb.list) with
      | none => exact .inl (by rw [heq, hbest])
      | some c =>
        obtain ⟨a, b, hl, -⟩ := bestCandidate_spec pr hbest
        have hc : c ∈ candidatesFrom pr s 0 s.arb.list := by rw [hl]; simp
        exact .inr ⟨pr, c, rfl, rfl, mem_candidates.mp hc, by rw [heq, hbest]⟩

/-- What a grant leaves in the arbiter and in the records (R139). -/
theorem grantChange_keeps (pr : Profile) (c : Candidate) (s : State) :
    (grantChange pr c s).arb =
        { s.arb with
          list := removeGranted c.entry.key c.index s.arb.list
          inFlight :=
            some
              { key := c.entry.key, value := c.entry.value, arrival := c.entry.arrival,
                granted := c.granted }
          settleCount := 0
          settleTimer := startMs pr.settleLimit } ∧
      (grantChange pr c s).line.speedGrant = (s.line.putRecord c.entry.key c.granted).speedGrant ∧
      (grantChange pr c s).line.exhaust = (s.line.putRecord c.entry.key c.granted).exhaust ∧
      (grantChange pr c s).line.setpoints = (s.line.putRecord c.entry.key c.granted).setpoints :=
  writeRecord_keeps _ _ _

/-- A change of this key stands: it waits or is in flight. -/
def Standing (s : State) (key : ChangeKey) : Prop :=
  (∃ e ∈ s.arb.list, e.key = key) ∨ ∃ c, s.arb.inFlight = some c ∧ c.key = key

theorem removeGranted_keys {key : ChangeKey} {i : Nat} {l : List PendingEntry} {x : PendingEntry}
    (h : x ∈ removeGranted key i l) : ∃ y ∈ l, y.key = x.key := by
  unfold removeGranted at h
  split at h
  · rcases List.mem_append.mp h with h | h
    · obtain ⟨y, hy, rfl⟩ := List.mem_map.mp h
      exact ⟨y, List.mem_of_mem_take hy, rfl⟩
    · obtain ⟨y, hy, rfl⟩ := List.mem_map.mp h
      exact ⟨y, List.mem_of_mem_drop hy, rfl⟩
  · exact ⟨x, List.mem_of_mem_eraseIdx h, rfl⟩

/-- What stands after a pass stood before it. -/
theorem arbiterPass_standing {s : State} {key : ChangeKey} (h : Standing (arbiterPass s) key) :
    Standing s key := by
  rcases arbiterPass_cases s with heq | ⟨pr, c, -, -, ⟨hc, -⟩, heq⟩
  · rwa [heq] at h
  · rw [heq, Standing, (grantChange_keeps pr c s).1] at h
    rcases h with ⟨e, he, rfl⟩ | ⟨f, hf, rfl⟩
    · exact .inl (removeGranted_keys he)
    · obtain rfl := Option.some.inj hf
      exact .inl ⟨c.entry, List.mem_of_getElem? hc, rfl⟩

/-- A pass stores no outcome and gives no arrival number. -/
theorem arbiterPass_outcomes (s : State) :
    (arbiterPass s).arb.outcomes = s.arb.outcomes ∧ (arbiterPass s).arb.arrival = s.arb.arrival := by
  rcases arbiterPass_cases s with heq | ⟨pr, c, -, -, -, heq⟩
  · rw [heq]; exact ⟨rfl, rfl⟩
  · rw [heq, (grantChange_keeps pr c s).1]; exact ⟨rfl, rfl⟩

/-! ### Headroom, kind by kind -/

section
variable (pr : Profile) (s : State)

theorem headroom_speed (v : Int) :
    headroom pr s .speed v =
      if (s.line.speedGrant : Int) <
          min (min v (s.line.speedGrant + pr.rampStep)) (s.env.ceiling : Int) then
        some (min (min v (s.line.speedGrant + pr.rampStep)) (s.env.ceiling : Int))
      else none := by
  have hmin : speedStep pr s (min v s.env.ceiling) =
      min (min v (s.line.speedGrant + pr.rampStep)) (s.env.ceiling : Int) := by
    unfold speedStep
    omega
  simp only [headroom, admittedValue, hmin]

theorem blindRelease_iff :
    blindRelease s = true ↔ s.load.flow = 0 ∧ ∃ r ∈ s.ring.release, 0 < r := by
  simp [blindRelease]

variable {pr s}

theorem exhaustFloor_eq (h : s.line.phase.heated) (v : Int) :
    exhaustFloor pr s v =
      if s.line.phase = .heating then
        max v ((s.load.flow * s.load.peak + pr.loadHold - 1) / pr.loadHold : Nat)
      else max (max v ((s.load.flow * s.load.peak + pr.loadHold - 1) / pr.loadHold : Nat))
        (pr.flowReady : Int) := by
  rcases (heated_iff _).mp h with h | h | h | h <;> simp [exhaustFloor, ceilDiv, h]

theorem headroom_exhaust_of_heated (h : s.line.phase.heated) (v : Int) :
    headroom pr s .exhaust v =
      if exhaustFloor pr s v < s.line.exhaust ∧ blindRelease s = false then
        some (exhaustFloor pr s v)
      else none := by
  simp only [headroom, admittedValue, h, if_true]
  exact if_congr Iff.rfl rfl rfl

theorem clampZone_eq {z : Nat} {e : ZoneItems} (he : pr.dryers[z]? = some e) (v : Int) :
    clampZone pr s z v = min (max v e.setMin) (min e.setMax (s.env.heatCaps.getD z 0)) := by
  rw [clampZone, zoneOr_of_used (used_of_dryer he)]
  rfl

theorem clampSetpoint_eq {z : Nat} {e : ZoneItems} (he : pr.used[z]? = some e) (v : Int) :
    clampSetpoint pr z v = min (max v e.setMin) e.setMax := by
  rw [clampSetpoint, zoneOr_of_used he]
  rfl

theorem headroom_zone_of_heated (h : s.line.phase.heated) (z : Nat) (v : Int) :
    headroom pr s (.zone z) v =
      if (s.setpoint z < clampZone pr s z v ∧ s.load.peak < pr.loadHold) ∨
          clampZone pr s z v < s.setpoint z then
        some (clampZone pr s z v)
      else none := by
  simp only [headroom, admittedValue, h, if_true]
  grind

theorem headroom_chill_of_heated (h : s.line.phase.heated) (c : Nat) (v : Int) :
    headroom pr s (.chill c) v = chillStep pr s c (clampSetpoint pr c v) := by
  simp [headroom, admittedValue, h]

/-- In COLD and PURGE a setpoint is written as it stands clamped, the exhaust as it stands. -/
theorem headroom_of_cold (h : s.line.phase = .cold ∨ s.line.phase = .purge) (z : Nat) (v : Int) :
    headroom pr s .exhaust v = (if v ≠ s.line.exhaust then some v else none) ∧
      headroom pr s (.zone z) v =
        (if clampSetpoint pr z v ≠ s.setpoint z then some (clampSetpoint pr z v) else none) ∧
      headroom pr s (.chill z) v =
        (if clampSetpoint pr z v ≠ s.setpoint z then some (clampSetpoint pr z v) else none) := by
  have hcold : s.line.phase.heated = false := by rcases h with h | h <;> rw [h] <;> rfl
  simp [headroom, admittedValue, hcold, h]

end

/-! ### The CHILL search (R137) -/

/-- The trial passes with CHILL input `c` at `x`. -/
def ChillPasses (pr : Profile) (s : State) (c : Nat) (x : Int) : Prop :=
  ∀ start, s.env.tIn = some start →
    chillTrial pr (rollsOf pr (s.ring.inputs.set c x)) (predictionTime pr s.motion) start ≤ pr.setLimit

section
variable {pr : Profile} {s : State} {c : Nat} {w : Int}

/-- The search that `chillStep` runs above the setpoint. -/
theorem chillStep_eq (h : s.setpoint c < w) :
    chillStep pr s c w =
      (greatestFrom
        (fun k : Nat => trialPasses pr (rollsOf pr (s.ring.inputs.set c (s.setpoint c + k)))
          (predictionTime pr s.motion) s.env.tIn)
        1 ((w - s.setpoint c).toNat - 1)).map (fun k : Nat => s.setpoint c + k) := by
  rw [chillStep]
  refine (if_neg (not_le.mpr h)).trans ?_
  generalize greatestFrom _ _ _ = found
  cases found <;> rfl

theorem chillStep_of_reached (h : w ≤ s.setpoint c) : chillStep pr s c w = none := by
  rw [chillStep]
  exact if_pos h

/-- A value above the setpoint, as the search counts it. -/
theorem exists_step {sp x : Int} (h : sp < x) : ∃ k : Nat, 1 ≤ k ∧ x = sp + k :=
  ⟨(x - sp).toNat, by omega, by omega⟩

theorem chillStep_some {g : Int} (h : chillStep pr s c w = some g) :
    s.setpoint c < g ∧ g ≤ w ∧ ChillPasses pr s c g ∧
      ∀ x, g < x → x ≤ w → ¬ChillPasses pr s c x := by
  have hlt : s.setpoint c < w := by
    refine not_le.mp fun hle => ?_
    rw [chillStep_of_reached hle] at h
    exact absurd h (by simp)
  rw [chillStep_eq hlt, Option.map_eq_some_iff] at h
  obtain ⟨k, hk, rfl⟩ := h
  obtain ⟨hk1, hk2, hpass, hnone⟩ := greatestFrom_eq_some hk
  refine ⟨by omega, by omega, (trialPasses_iff _ _ _ _).mp hpass, fun x hx hxw hp => ?_⟩
  obtain ⟨j, hj, rfl⟩ := exists_step (by omega : s.setpoint c < x)
  have hfails := hnone j (by omega) (by omega)
  rw [(trialPasses_iff _ _ _ _).mpr hp] at hfails
  exact absurd hfails (by simp)

theorem chillStep_none (h : chillStep pr s c w = none) :
    ∀ x, s.setpoint c < x → x ≤ w → ¬ChillPasses pr s c x := by
  intro x hx hxw hp
  rw [chillStep_eq (by omega), Option.map_eq_none_iff] at h
  obtain ⟨j, hj, rfl⟩ := exists_step hx
  have hfails := greatestFrom_eq_none h j (by omega) (by omega)
  rw [(trialPasses_iff _ _ _ _).mpr hp] at hfails
  exact absurd hfails (by simp)

/-- The search finds the greatest passing value. -/
theorem chillStep_eq_some_iff {g : Int} :
    chillStep pr s c w = some g ↔
      s.setpoint c < g ∧ g ≤ w ∧ ChillPasses pr s c g ∧
        ∀ x, g < x → x ≤ w → ¬ChillPasses pr s c x := by
  refine ⟨chillStep_some, fun ⟨hlt, hle, hp, hmax⟩ => ?_⟩
  cases h : chillStep pr s c w with
  | none => exact absurd hp (chillStep_none h g hlt hle)
  | some x =>
    obtain ⟨hx, hxw, hxp, hxmax⟩ := chillStep_some h
    rcases lt_trichotomy g x with hgx | rfl | hxg
    · exact absurd hxp (hmax x hgx hxw)
    · rfl
    · exact absurd hp (hxmax g hxg hle)

theorem chillStep_eq_none_of (h : ∀ x, s.setpoint c < x → x ≤ w → ¬ChillPasses pr s c x) :
    chillStep pr s c w = none := by
  refine Option.eq_none_iff_forall_ne_some.mpr fun g hg => ?_
  obtain ⟨hlt, hle, hp, -⟩ := chillStep_some hg
  exact h g hlt hle hp

theorem chillStep_of_absent (hin : s.env.tIn = none) (hlt : s.setpoint c < w) :
    chillStep pr s c w = some w :=
  chillStep_eq_some_iff.mpr ⟨hlt, le_refl w, fun _ h => absurd (hin.symm.trans h) (by simp),
    fun _ h h' => absurd h' (by omega)⟩

end

/-! ### The statement -/

/-- A grant among the entries with headroom: the best of them. -/
theorem arbiterPass_grants {pr : Profile} {s : State} (hp : s.prof.committed = some pr)
    (hf : s.arb.inFlight = none) (h : ∃ i e g, MayGrant pr s i e g) :
    ∃ i e g, MayGrant pr s i e g ∧
      (∀ j x y, MayGrant pr s j x y →
        priorityOf pr x.key < priorityOf pr e.key ∨
          (priorityOf pr x.key = priorityOf pr e.key ∧ i ≤ j)) ∧
      arbiterPass s = grantChange pr { index := i, entry := e, granted := g } s := by
  have heq := arbiterPass_of_best hp hf
  cases hbest : bestCandidate pr (candidatesFrom pr s 0 s.arb.list) with
  | none =>
    obtain ⟨i, e, g, hi⟩ := h
    have hmem : ({ index := i, entry := e, granted := g } : Candidate) ∈
        candidatesFrom pr s 0 s.arb.list := mem_candidates.mpr hi
    rw [bestCandidate_eq_none hbest] at hmem
    exact absurd hmem (by simp)
  | some c =>
    rw [hbest] at heq
    obtain ⟨a, b, hl, ha, hb⟩ := bestCandidate_spec pr hbest
    have hsorted := candidatesFrom_sorted pr s 0 s.arb.list
    have hmem : c ∈ candidatesFrom pr s 0 s.arb.list := by rw [hl]; simp
    rw [hl] at hsorted
    obtain ⟨-, hbc, -⟩ := List.pairwise_append.mp hsorted
    refine ⟨c.index, c.entry, c.granted, mem_candidates.mp hmem, fun j x y hj => ?_, heq⟩
    have hx : ({ index := j, entry := x, granted := y } : Candidate) ∈
        candidatesFrom pr s 0 s.arb.list := mem_candidates.mpr hj
    rw [hl] at hx
    rcases List.mem_append.mp hx with hx | hx
    · exact .inl (ha _ hx)
    · rcases List.mem_cons.mp hx with rfl | hx
      · exact .inr ⟨rfl, Nat.le_refl _⟩
      · have hlt := (List.pairwise_cons.mp hbc).1 _ hx
        rcases Nat.lt_or_eq_of_le (hb _ hx) with h | h
        · exact .inl h
        · exact .inr ⟨h, Nat.le_of_lt hlt⟩

/-- Settles O45: the pass grants its best candidate, and headroom kind by kind. -/
theorem passGrantsBest : Obligations.PassGrantsBest := by
  intro pr s hp
  refine ⟨arbiterPass_of_flight, fun hno => ?_, fun hf h => ?_, headroom_speed pr s, fun hh => ?_,
    fun hc => ⟨fun v => (headroom_of_cold hc 0 v).1, fun z e v he => ?_⟩⟩
  · rcases arbiterPass_cases s with heq | ⟨pr', c, hp', -, hc, -⟩
    · exact heq
    · obtain rfl := Option.some.inj (hp.symm.trans hp')
      exact absurd hc (hno _ _ _)
  · obtain ⟨i, e, g, hi, hbest, heq⟩ := arbiterPass_grants hp hf h
    obtain ⟨harb, hspeed, hexhaust, hpoints⟩ :=
      grantChange_keeps pr { index := i, entry := e, granted := g } s
    have hframe := arbiterPass_frame s
    rw [heq] at hframe ⊢
    rw [harb]
    exact ⟨i, e, g, hi, hbest, rfl, rfl, rfl, fun hk => if_neg hk, fun hk => if_pos hk, rfl, rfl,
      hspeed, hexhaust, hpoints, hframe⟩
  · refine ⟨fun z e v he => ?_, fun v => ?_, fun c e v _ he => ⟨fun g => ?_, fun hno => ?_, ?_⟩⟩
    · rw [headroom_zone_of_heated hh, clampZone_eq he]
      rfl
    · have hblind : blindRelease s = false ↔ ¬(s.load.flow = 0 ∧ ∃ r ∈ s.ring.release, 0 < r) := by
        rw [← blindRelease_iff, Bool.not_eq_true]
      simp only [headroom_exhaust_of_heated hh, exhaustFloor_eq hh, hblind]
    · rw [headroom_chill_of_heated hh, clampSetpoint_eq he]
      exact chillStep_eq_some_iff
    · rw [headroom_chill_of_heated hh, clampSetpoint_eq he]
      exact chillStep_eq_none_of hno
    · intro hin hlt
      rw [headroom_chill_of_heated hh, clampSetpoint_eq he]
      exact chillStep_of_absent hin hlt
  · obtain ⟨-, hzone, hchill⟩ := headroom_of_cold (pr := pr) hc z v
    rw [hzone, hchill, clampSetpoint_eq he]
    exact ⟨rfl, rfl⟩

end Sys2Proof.Machine
end

section
/-! PROOFS. Admission (R130 to R132) and the ends a timer or the owner gives a change (R133, R135, R141). -/
namespace Sys2Proof.Machine

/-! ### Which entries end -/

theorem endPending_of_none {sel : PendingEntry → Bool} {s : State}
    (h : ∀ e ∈ s.arb.list, sel e = false) (r : EndReason) : endPending sel r s = s := by
  have hends : s.arb.list.filter sel = [] := List.filter_eq_nil_iff.mpr fun e he => by simp [h e he]
  have hstays : s.arb.list.filter (fun e => !sel e) = s.arb.list :=
    List.filter_eq_self.mpr fun e he => by simp [h e he]
  rw [endPending, hends, hstays]
  rfl

/-- Where one entry alone ends, the others stay in order. -/
theorem filter_of_only {sel : PendingEntry → Bool} {l : List PendingEntry} {i : Nat}
    {e : PendingEntry} (hi : l[i]? = some e) (he : sel e = true)
    (honly : ∀ (j : Nat) (x : PendingEntry), l[j]? = some x → sel x = true → j = i) :
    l.filter sel = [e] ∧ l.filter (fun x => !sel x) = l.eraseIdx i := by
  obtain ⟨hlt, hget⟩ := List.getElem?_eq_some_iff.mp hi
  have hsplit : l = l.take i ++ e :: l.drop (i + 1) := by
    rw [← hget, ← List.drop_eq_getElem_cons, List.take_append_drop]
  have hbefore : ∀ x ∈ l.take i, sel x = false := by
    intro x hx
    obtain ⟨j, hj⟩ := List.mem_iff_getElem?.mp hx
    rw [List.getElem?_take] at hj
    split at hj
    · refine Bool.eq_false_iff.mpr fun hsel => ?_
      have := honly j x hj hsel
      omega
    · simp at hj
  have hafter : ∀ x ∈ l.drop (i + 1), sel x = false := by
    intro x hx
    obtain ⟨j, hj⟩ := List.mem_iff_getElem?.mp hx
    rw [List.getElem?_drop] at hj
    refine Bool.eq_false_iff.mpr fun hsel => ?_
    have := honly _ x hj hsel
    omega
  rw [List.eraseIdx_eq_take_drop_succ]
  constructor
  · rw [hsplit, List.filter_append, List.filter_cons_of_pos he,
      List.filter_eq_nil_iff.mpr fun x hx => by simp [hbefore x hx],
      List.filter_eq_nil_iff.mpr fun x hx => by simp [hafter x hx]]
    rfl
  · conv => lhs; rw [hsplit]
    rw [List.filter_append, List.filter_cons_of_neg (by simp [he]),
      List.filter_eq_self.mpr fun x hx => by simp [hbefore x hx],
      List.filter_eq_self.mpr fun x hx => by simp [hafter x hx]]

/-- Entries of one owner that end leave it the outcome of one of them. -/
theorem storeEnds_outcome_of_owner {l : List PendingEntry} {p : Port} (hl : l ≠ [])
    (h : ∀ e ∈ l, keyOwner e.key = p) (r : EndReason) (s : State) :
    ∃ e ∈ l, (storeEnds r l s).arb.outcomes.get p = some (e.outcome r) := by
  obtain ⟨a, e, rfl⟩ := (List.eq_nil_or_concat l).resolve_left hl
  rw [List.concat_eq_append] at h ⊢
  have he : e ∈ a ++ [e] := by simp
  have hlast : ∀ x ∈ ([] : List PendingEntry), keyOwner x.key ≠ keyOwner e.key := by simp
  exact ⟨e, he, h e he ▸ storeEnds_outcome_of_last hlast r s⟩

/-! ### The ends of one key -/

theorem flies_iff (s : State) (key : ChangeKey) :
    flies s key = true ↔ ∃ c, s.arb.inFlight = some c ∧ c.key = key := by
  unfold flies
  cases s.arb.inFlight <;> simp

theorem waits_iff (s : State) (key : ChangeKey) :
    waits s key = true ↔ ∃ e ∈ s.arb.list, e.key = key := by
  simp [waits]

theorem standing_iff (s : State) (key : ChangeKey) :
    Standing s key ↔ waits s key = true ∨ flies s key = true := by
  rw [flies_iff, waits_iff]
  rfl

/-- The list without the entries of `key`. -/
theorem endPendingOf_keys {key : ChangeKey} {r : EndReason} {s : State} :
    ∀ e ∈ (endPendingOf key r s).arb.list, e ∈ s.arb.list ∧ e.key ≠ key := by
  intro e he
  rw [endPendingOf, (endPending_arb _ _ _).1, List.mem_filter] at he
  exact ⟨he.1, by simpa using he.2⟩

/-- A change of `key` that waits and ends leaves its owner an outcome of that key. -/
theorem endPendingOf_outcome {key : ChangeKey} {s : State} (h : ∃ e ∈ s.arb.list, e.key = key)
    (r : EndReason) :
    (∃ o, (endPendingOf key r s).arb.outcomes.get (keyOwner key) = some o ∧ o.key = key ∧
        o.reason = r) ∧
      Notice.changeDone.inSet ((endPendingOf key r s).port (keyOwner key)).pendingSet = true := by
  obtain ⟨e, he, hk⟩ := h
  have hmem : e ∈ s.arb.list.filter (fun x => x.key == key) :=
    List.mem_filter.mpr ⟨he, by simp [hk]⟩
  have hall : ∀ x ∈ s.arb.list.filter (fun x => x.key == key), x.key = key := by
    intro x hx
    simpa using (List.mem_filter.mp hx).2
  obtain ⟨x, hx, hout⟩ := storeEnds_outcome_of_owner (List.ne_nil_of_mem hmem)
    (fun x hx => congrArg keyOwner (hall x hx)) r
    (s.setArb { s.arb with list := s.arb.list.filter (fun x => !(x.key == key)) })
  have hnoticed := storeEnds_noticed hmem r
    (s.setArb { s.arb with list := s.arb.list.filter (fun x => !(x.key == key)) })
  rw [hk] at hnoticed
  rw [endPendingOf, endPending]
  exact ⟨⟨x.outcome r, hout, hall x hx, rfl⟩, hnoticed⟩

theorem endPendingOf_of_none {key : ChangeKey} {s : State} (h : ∀ e ∈ s.arb.list, e.key ≠ key)
    (r : EndReason) : endPendingOf key r s = s :=
  endPending_of_none (fun e he => by simp [h e he]) r

/-- A change of `key` in flight that ends leaves its owner its outcome. -/
theorem endInFlight_outcome {key : ChangeKey} {s : State} {c : InFlight}
    (h : s.arb.inFlight = some c) (hk : c.key = key) (r : EndReason) :
    (∃ o, (endInFlight r s).arb.outcomes.get (keyOwner key) = some o ∧ o.key = key ∧ o.reason = r) ∧
      Notice.changeDone.inSet ((endInFlight r s).port (keyOwner key)).pendingSet = true := by
  subst hk
  exact ⟨⟨_, (endInFlight_outcomes h r _).trans (if_pos rfl), rfl, rfl⟩, endInFlight_noticed h r⟩

/-- A change in flight ends and a pass follows: its outcome stays stored, and with nothing waiting the phase unit
is untouched and nothing is in flight. -/
theorem arbiterPass_endInFlight {s : State} {c : InFlight} (h : s.arb.inFlight = some c) (r : EndReason) :
    (arbiterPass (endInFlight r s)).arb.outcomes.get (keyOwner c.key) = some (c.outcome r) ∧
      Notice.changeDone.inSet
        ((arbiterPass (endInFlight r s)).port (keyOwner c.key)).pendingSet = true ∧
      (s.arb.list = [] →
        (arbiterPass (endInFlight r s)).line = s.line ∧
          (arbiterPass (endInFlight r s)).arb.inFlight = none ∧
          (arbiterPass (endInFlight r s)).arb.settleCount = 0 ∧
          (arbiterPass (endInFlight r s)).arb.settleTimer = none) := by
  refine ⟨?_, ?_, fun hl => ?_⟩
  · rw [(arbiterPass_outcomes _).1]
    exact (endInFlight_outcomes h _ _).trans (if_pos rfl)
  · exact KeepsPending.of_evolves (arbiterPass_evolves _) _ _ (endInFlight_noticed h r)
  · obtain ⟨hnone, hlist, -⟩ := endInFlight_arb r s
    obtain ⟨hcount, htimer⟩ := endInFlight_settle (Option.isSome_of_eq_some h) r
    obtain ⟨-, -, -, -, -, -, hline, -⟩ := endInFlight_frame r s
    rw [arbiterPass_of_empty (hlist.trans hl)]
    exact ⟨hline, hnone, hcount, htimer⟩

/-! ### Cancelling (R133) -/

theorem cancelChange_of_flying {key : ChangeKey} {s : State} (h : flies s key = true) :
    cancelChange key s =
      arbiterPass (endInFlight .cancelled (endPendingOf key .cancelled s)) := by
  have hf : flies (endPendingOf key .cancelled s) key = true := by
    rw [flies_iff] at h ⊢
    rw [endPendingOf, (endPending_arb _ _ _).2.1]
    exact h
  rw [cancelChange]
  exact if_pos hf

theorem cancelChange_of_still {key : ChangeKey} {s : State} (h : flies s key = false) :
    cancelChange key s = endPendingOf key .cancelled s := by
  have hf : ¬flies (endPendingOf key .cancelled s) key = true := by
    rw [← Bool.not_eq_true, flies_iff] at h
    rw [flies_iff, endPendingOf, (endPending_arb _ _ _).2.1]
    exact h
  rw [cancelChange]
  exact if_neg hf

theorem cancelChange_standing (key : ChangeKey) (s : State) : ¬Standing (cancelChange key s) key := by
  cases hf : flies s key with
  | false =>
    rw [cancelChange_of_still hf]
    rintro (⟨e, he, hk⟩ | hc)
    · exact (endPendingOf_keys e he).2 hk
    · rw [endPendingOf, (endPending_arb _ _ _).2.1, ← flies_iff, hf] at hc
      exact absurd hc (by simp)
  | true =>
    rw [cancelChange_of_flying hf]
    intro h
    obtain ⟨hnone, hlist, -⟩ := endInFlight_arb .cancelled (endPendingOf key .cancelled s)
    rcases arbiterPass_standing h with ⟨e, he, hk⟩ | ⟨c, hc, -⟩
    · rw [hlist] at he
      exact (endPendingOf_keys e he).2 hk
    · exact absurd (hnone.symm.trans hc) (by simp)

theorem cancelChange_outcome {key : ChangeKey} {s : State} (h : Standing s key) :
    ∃ o, (cancelChange key s).arb.outcomes.get (keyOwner key) = some o ∧ o.key = key ∧
      o.reason = .cancelled := by
  cases hf : flies s key with
  | false =>
    rw [cancelChange_of_still hf]
    have hw := ((standing_iff s key).mp h).resolve_right (by simp [hf])
    exact (endPendingOf_outcome ((waits_iff s key).mp hw) .cancelled).1
  | true =>
    rw [cancelChange_of_flying hf, (arbiterPass_outcomes _).1]
    obtain ⟨c, hc, hk⟩ := (flies_iff s key).mp hf
    have hc' : (endPendingOf key .cancelled s).arb.inFlight = some c := by
      rw [endPendingOf, (endPending_arb _ _ _).2.1]
      exact hc
    exact (endInFlight_outcome hc' hk .cancelled).1

/-! ### Admission (R130 to R132) -/

theorem statusFor_held {s : State} {key : ChangeKey} {v : Int}
    (h : s.line.phase = .draining ∧ ∃ z, key = .zone z ∧ v < s.line.setpoints.getD z 0) :
    statusFor s key v = .held :=
  if_pos ⟨h.1, (belowSetpoint_iff s key v).mpr h.2⟩

theorem statusFor_queued {s : State} {key : ChangeKey} {v : Int}
    (h : ¬(s.line.phase = .draining ∧ ∃ z, key = .zone z ∧ v < s.line.setpoints.getD z 0)) :
    statusFor s key v = .queued :=
  if_neg fun hb => h ⟨hb.1, (belowSetpoint_iff s key v).mp hb.2⟩

theorem entryOf_eq_none {s : State} {key : ChangeKey} :
    s.entryOf key = none ↔ ∀ e ∈ s.arb.list, e.key ≠ key := by
  simp [State.entryOf]

/-- The entry of a key that waits once. -/
theorem entryOf_of_only {s : State} {key : ChangeKey} {i : Nat} {e : PendingEntry}
    (hi : s.arb.list[i]? = some e) (hk : e.key = key)
    (honly : ∀ (j : Nat) (x : PendingEntry), s.arb.list[j]? = some x → x.key = key → j = i) :
    s.entryOf key = some e := by
  cases hx : s.entryOf key with
  | none => exact absurd hk (entryOf_eq_none.mp hx e (List.mem_of_getElem? hi))
  | some x =>
    have hxk : x.key = key := by simpa using List.find?_some hx
    obtain ⟨j, hj⟩ := List.mem_iff_getElem?.mp (List.mem_of_find?_eq_some hx)
    rw [honly j x hj hxk, hi] at hj
    exact hj.symm

/-- A change that does not ride on the SPEED change in flight goes to the list. -/
theorem placeChange_of_listed {pr : Profile} {key : ChangeKey} {v : Int} {s : State}
    (h : ¬(key = .speed ∧ ∃ c, s.arb.inFlight = some c ∧ c.key = .speed)) :
    placeChange pr key v s = placeChange.placeInList pr key v s := by
  unfold placeChange
  cases hc : s.arb.inFlight with
  | none => rfl
  | some c => exact if_neg fun hs => h ⟨hs.1, c, hc, hs.2⟩

theorem placeInList_of_new {pr : Profile} {key : ChangeKey} {v : Int} {s : State}
    (h : ∀ e ∈ s.arb.list, e.key ≠ key) :
    placeChange.placeInList pr key v s =
      if Config.pendingCapacity ≤ s.arb.list.length then none
      else some (admissionAfter key (arbiterPass (joinList pr key v s)) s.arb.arrival
        (statusFor s key v)) := by
  rw [placeChange.placeInList, entryOf_eq_none.mpr h]

theorem placeInList_of_waiting {pr : Profile} {key : ChangeKey} {v : Int} {s : State}
    {e : PendingEntry} (h : s.entryOf key = some e) :
    placeChange.placeInList pr key v s =
      some (admissionAfter key
        (arbiterPass (s.setArb { s.arb with list := s.arb.list.map (supersedeEntry pr s key v) }))
        e.arrival (statusFor s key v)) := by
  rw [placeChange.placeInList, h]

/-- The entry that joins the list. -/
def joiningEntry (pr : Profile) (key : ChangeKey) (v : Int) (s : State) : PendingEntry :=
  { key := key, value := v, arrival := s.arb.arrival, status := statusFor s key v,
    timer := timerFor pr (statusFor s key v), ahead := false }

theorem joinList_list (pr : Profile) (key : ChangeKey) (v : Int) (s : State) :
    (joinList pr key v s).arb.list = s.arb.list ++ [joiningEntry pr key v s] := rfl

/-- With a change in flight the new entry waits, or is held. -/
theorem disposition_of_flight {pr : Profile} {key : ChangeKey} {v : Int} {s : State}
    (hnew : ∀ e ∈ s.arb.list, e.key ≠ key) (hf : s.arb.inFlight.isSome) (arrival : Word16) :
    (admissionAfter key (arbiterPass (joinList pr key v s)) arrival (statusFor s key v)).disposition =
      if statusFor s key v = .held then .held else .waiting := by
  have hpass : arbiterPass (joinList pr key v s) = joinList pr key v s :=
    arbiterPass_of_flight (Option.isSome_iff_ne_none.mp hf)
  have hentry : (joinList pr key v s).entryOf key = some (joiningEntry pr key v s) := by
    rw [State.entryOf, joinList_list, List.find?_append]
    have hnone : s.arb.list.find? (fun e => e.key == key) = none := entryOf_eq_none.mpr hnew
    rw [hnone]
    simp [joiningEntry]
  simp only [admissionAfter, hpass, hentry]
  rfl

theorem disposition_of_gone {key : ChangeKey} {s : State} (h : ∀ e ∈ s.arb.list, e.key ≠ key)
    (arrival : Word16) (st : EntryStatus) :
    (admissionAfter key s arrival st).disposition = .granted := by
  simp only [admissionAfter, entryOf_eq_none.mpr h]

/-- A new value goes to the entry of its key alone. -/
theorem map_supersede {pr : Profile} {key : ChangeKey} {v : Int} {s : State} {i : Nat}
    {e : PendingEntry} (hi : s.arb.list[i]? = some e)
    (honly : ∀ (j : Nat) (x : PendingEntry), s.arb.list[j]? = some x → x.key = key → j = i) :
    s.arb.list.map (supersedeEntry pr s key v) =
      s.arb.list.set i (supersedeEntry pr s key v e) := by
  refine List.ext_getElem? fun j => ?_
  rw [List.getElem?_map, List.getElem?_set]
  split
  · next h =>
    subst h
    rw [hi, if_pos (List.getElem?_eq_some_iff.mp hi).1]
    rfl
  · next h =>
    cases hx : s.arb.list[j]? with
    | none => rfl
    | some x =>
      have hne : x.key ≠ key := fun hxk => h (honly j x hx hxk).symm
      exact congrArg some (if_neg hne)

/-- Settles O44: the three places of an admitted change. -/
theorem admissionPlacesEntry : Obligations.AdmissionPlacesEntry := by
  intro pr key v s
  refine ⟨fun c hc hspeed hflying => ?_, fun hr hnew hfull => ?_, fun hr hnew hroom => ?_,
    fun i e hr hi hk honly => ?_⟩
  · simp only [placeChange, hc]
    exact if_pos ⟨hspeed, hflying⟩
  · rw [placeChange_of_listed hr, placeInList_of_new hnew]
    exact if_pos hfull
  · have hplace : placeChange pr key v s =
        some (admissionAfter key (arbiterPass (joinList pr key v s)) s.arb.arrival
          (statusFor s key v)) := by
      rw [placeChange_of_listed hr, placeInList_of_new hnew]
      exact if_neg (Nat.not_le.mpr hroom)
    refine ⟨_, statusFor s key v, timerFor pr (statusFor s key v), hplace, rfl, fun hheld => ?_,
      fun hfree => ?_, rfl, fun hf => disposition_of_flight hnew hf _, fun hgone => ?_⟩
    · rw [statusFor_held hheld]
      exact ⟨rfl, rfl, rfl⟩
    · rw [statusFor_queued hfree]
      exact ⟨rfl, rfl, rfl⟩
    · exact disposition_of_gone hgone _ _
  · have hplace := placeInList_of_waiting (pr := pr) (v := v) (entryOf_of_only hi hk honly)
    rw [← placeChange_of_listed hr, map_supersede hi honly] at hplace
    have hentry : supersedeEntry pr s key v e =
        { e with
          value := v
          status := statusFor s key v
          timer :=
            if e.status = .queued ∧ statusFor s key v = .queued then e.timer
            else timerFor pr (statusFor s key v) } := if_pos hk
    rw [hentry] at hplace
    refine ⟨_, statusFor s key v, _, hplace, rfl, fun hheld => ?_, fun hfree => ?_, rfl⟩
    · rw [statusFor_held hheld]
      exact ⟨rfl, if_neg (by simp), rfl⟩
    · rw [statusFor_queued hfree]
      exact ⟨rfl, rfl, fun hq => if_pos ⟨hq, rfl⟩, fun hh => if_neg (by simp [hh])⟩

/-! ### CHANGE_CANCEL -/

/-- The keys that the kind codes name (R185). -/
theorem changeKeyOf_some {k z : Nat} {key : ChangeKey} (h : changeKeyOf k z = some key) :
    (k = 1 ∧ key = .speed) ∨ (k = 2 ∧ key = .exhaust) ∨ (k = 3 ∧ key = .zone z) ∨
      (k = 4 ∧ key = .chill z) := by
  unfold changeKeyOf at h
  split at h
  · exact .inl ⟨rfl, (Option.some.inj h).symm⟩
  · exact .inr (.inl ⟨rfl, (Option.some.inj h).symm⟩)
  · exact .inr (.inr (.inl ⟨rfl, (Option.some.inj h).symm⟩))
  · exact .inr (.inr (.inr ⟨rfl, (Option.some.inj h).symm⟩))
  · exact absurd h (by simp)

/-- The zone a key names is in the map where it is a used one; SPEED and EXHAUST name none. -/
theorem zoneNamed_iff {pr : Profile} {kind zone : Byte} {key : ChangeKey}
    (h : changeKeyOf kind.toNat zone.toNat = some key) :
    zoneNamed pr key = true ↔ (kind = 3 ∨ kind = 4 → zone.toNat < pr.used.length) := by
  have hkind : ∀ b : Byte, kind = b ↔ kind.toNat = b.toNat := fun b => BitVec.toNat_inj.symm
  rw [hkind 3, hkind 4]
  rcases changeKeyOf_some h with ⟨hk, rfl⟩ | ⟨hk, rfl⟩ | ⟨hk, rfl⟩ | ⟨hk, rfl⟩ <;>
    simp [zoneNamed, keyZone, Profile.usedZone, hk]

theorem exec_changeCancel {p : Port} {kind zone : Byte} {s t : State} {reply : List Byte}
    (h : handleChangeCancel p [kind, zone] (frameTaken p s) = { state := t, payload := reply }) :
    exec (.changeCancel p [kind, zone]) s = .next (answer p 0x0A reply t) :=
  exec_answers (r := .changeCancel) rfl rfl h

/-- The number of standing changes, as the reply counts them. -/
theorem standingCount_eq (s : State) (key : ChangeKey) :
    standingCount s key =
      (if s.arb.list.any (fun e => e.key == key) then 1 else 0) +
        if s.arb.inFlight.map (·.key) = some key then 1 else 0 := by
  have hflies : flies s key = true ↔ s.arb.inFlight.map (·.key) = some key := by
    rw [flies_iff]
    simp
  exact congrArg₂ (· + ·) rfl (if_congr hflies rfl rfl)

theorem standing_of_count {s : State} {key : ChangeKey} (h : 0 < standingCount s key) :
    Standing s key := by
  rw [standing_iff]
  by_contra hno
  obtain ⟨hw, hf⟩ := not_or.mp hno
  simp [standingCount, hw, hf] at h

/-- What CHANGE_CANCEL answers, in the order of its tests. -/
theorem handleChangeCancel_cases {pr : Profile} {u : State} (hp : u.prof.committed = some pr)
    (p : Port) (kind zone : Byte) :
    (changeKeyOf kind.toNat zone.toNat = none →
      handleChangeCancel p [kind, zone] u = .code u .refusedRange) ∧
    ∀ key, changeKeyOf kind.toNat zone.toNat = some key →
      (zoneNamed pr key = false →
        handleChangeCancel p [kind, zone] u = .code u .refusedRange) ∧
      (zoneNamed pr key = true → keyOwner key ≠ p →
        handleChangeCancel p [kind, zone] u = { state := u, payload := [0x00, 0x00] }) ∧
      (zoneNamed pr key = true → keyOwner key = p →
        handleChangeCancel p [kind, zone] u =
          { state := cancelChange key u
            payload := [0x00, BitVec.ofNat 8 (standingCount u key)] }) := by
  unfold handleChangeCancel
  simp only [hp, fieldAt_byte₀, fieldAt_byte₁]
  refine ⟨fun h => ?_, fun key h => ⟨fun hn => ?_, fun hn ho => ?_, fun hn ho => ?_⟩⟩
  · rw [h]
  · rw [h]
    exact if_neg (by simp [hn])
  · rw [h]
    exact (if_pos hn).trans (if_neg ho)
  · rw [h]
    exact (if_pos hn).trans (if_pos ho)

/-! ### The statement -/

theorem exec_settleTimerExpiry (s : State) :
    exec .settleTimerExpiry s = execSettleTimerExpiry s := rfl

theorem exec_waitingTimerExpiry (key : ChangeKey) (s : State) :
    exec (.waitingTimerExpiry key) s = .next (waitingTimeout key s) := rfl

/-- Settles O46: the ends by timer, one entry's end, and CHANGE_CANCEL by its tests. -/
theorem endsOfChanges : Obligations.EndsOfChanges := by
  intro s
  refine ⟨fun h => ?_, fun c hc ht => ?_, fun key h => ?_, fun i e hi hq honly => ?_,
    fun p kind zone => ⟨fun hp => ?_, fun pr hp => ?_⟩⟩
  · rw [exec_settleTimerExpiry, execSettleTimerExpiry, h]
  · obtain ⟨n, hn⟩ := Option.isSome_iff_exists.mp ht
    obtain ⟨hout, hnoticed, hquiet⟩ := arbiterPass_endInFlight hc .timedOut
    refine ⟨settleTimeout s, ?_, (settleTimeout_evolves s).keeps, hout, hnoticed, hquiet⟩
    rw [exec_settleTimerExpiry, execSettleTimerExpiry, hn, hc]
  · rw [exec_waitingTimerExpiry, waitingTimeout, endPending_of_none]
    intro e he
    by_cases hk : e.key = key
    · simp [hk, h e he hk]
    · simp [hk]
  · have hsel : ∀ x : PendingEntry,
        (x.key == e.key && x.status == .queued) = true → x.key = e.key := by
      intro x hx
      simpa using (Bool.and_eq_true_iff.mp hx).1
    obtain ⟨hends, hstays⟩ := filter_of_only (sel := fun x => x.key == e.key && x.status == .queued)
      hi (by simp [hq]) fun j x hj hx => honly j x hj (hsel x hx)
    obtain ⟨hlist, hflight, -⟩ := endPending_arb (fun x => x.key == e.key && x.status == .queued)
      .noHeadroom s
    refine ⟨waitingTimeout e.key s, exec_waitingTimerExpiry _ s, endPending_frame _ _ _,
      hlist.trans hstays, hflight, ?_, ?_⟩
    · rw [waitingTimeout, endPending, hends, storeEnds, storeEnds, storeOutcome_arb]
      rfl
    · rw [waitingTimeout, endPending, hends]
      exact storeEnds_noticed (List.mem_singleton.mpr rfl) _ _
  · refine exec_changeCancel ?_
    rw [handleChangeCancel, hp]
    rfl
  · obtain ⟨hunnamed, hnamed⟩ := handleChangeCancel_cases hp p kind zone
    refine ⟨fun h => ?_, fun key hk hz => ⟨fun ho => ?_, fun ho => ?_⟩⟩
    · cases hkey : changeKeyOf kind.toNat zone.toNat with
      | none => exact exec_changeCancel (hunnamed hkey)
      | some key =>
        obtain ⟨h34, hout⟩ := h.resolve_left (by simp [hkey])
        have hn : zoneNamed pr key = false := by
          rw [← Bool.not_eq_true, zoneNamed_iff hkey]
          exact fun hin => absurd (hin h34) (Nat.not_lt.mpr hout)
        exact exec_changeCancel ((hnamed key hkey).1 hn)
    · exact exec_changeCancel ((hnamed key hk).2.1 ((zoneNamed_iff hk).mpr hz) ho)
    · subst ho
      have hstanding := cancelChange_standing key (frameTaken (keyOwner key) s)
      intro waiting flying
      have hcount : waiting + flying = standingCount (frameTaken (keyOwner key) s) key :=
        (standingCount_eq _ key).symm
      rw [hcount]
      refine ⟨_, exec_changeCancel ((hnamed key hk).2.2 ((zoneNamed_iff hk).mpr hz) rfl),
        cancelChange_frame _ _, fun e he hek => hstanding (.inl ⟨e, he, hek⟩),
        fun c hc hck => hstanding (.inr ⟨c, hc, hck⟩), fun hpos => ?_⟩
      exact cancelChange_outcome (standing_of_count hpos)

end Sys2Proof.Machine
end

section
/-! PROOFS. The change requests: those taken at once (R125 to R128), those that are admitted (R129). -/
namespace Sys2Proof.Machine

/-! ### A change taken at once (R127, R128) -/

theorem endInFlightOf_of_flying {s : State} {key : ChangeKey} (h : flies s key = true)
    (r : EndReason) : endInFlightOf key r s = endInFlight r s := if_pos h

theorem endInFlightOf_of_still {s : State} {key : ChangeKey} (h : flies s key = false)
    (r : EndReason) : endInFlightOf key r s = s := if_neg (by simp [h])

/-- The list stays, and no change of the key flies on. -/
theorem endInFlightOf_arb (key : ChangeKey) (r : EndReason) (s : State) :
    (endInFlightOf key r s).arb.list = s.arb.list ∧
      ∀ c, (endInFlightOf key r s).arb.inFlight = some c → c.key ≠ key := by
  cases hf : flies s key with
  | false =>
    rw [endInFlightOf_of_still hf]
    refine ⟨rfl, fun c hc hk => ?_⟩
    rw [(flies_iff s key).mpr ⟨c, hc, hk⟩] at hf
    exact absurd hf (by simp)
  | true =>
    obtain ⟨hnone, hlist, -⟩ := endInFlight_arb r s
    rw [endInFlightOf_of_flying hf]
    exact ⟨hlist, fun c hc => absurd (hnone.symm.trans hc) (by simp)⟩

/-- The changes of the key that stood have ended CANCELLED. -/
def standingEnded (key : ChangeKey) (s : State) : State :=
  endPendingOf key .cancelled (endInFlightOf key .cancelled s)

theorem takeAtOnce_eq (key : ChangeKey) (v : Int) (s : State) :
    takeAtOnce key v s = arbiterPass (writeRecord key v (standingEnded key s)) := rfl

theorem standingEnded_gone (key : ChangeKey) (s : State) : ¬Standing (standingEnded key s) key := by
  obtain ⟨-, hflight⟩ := endInFlightOf_arb key .cancelled s
  rintro (⟨e, he, hk⟩ | ⟨c, hc, hk⟩)
  · exact (endPendingOf_keys e he).2 hk
  · rw [standingEnded, endPendingOf, (endPending_arb _ _ _).2.1] at hc
    exact hflight c hc hk

theorem standingEnded_outcome {key : ChangeKey} {s : State} (h : Standing s key) :
    (∃ o, (standingEnded key s).arb.outcomes.get (keyOwner key) = some o ∧ o.key = key ∧
        o.reason = .cancelled) ∧
      Notice.changeDone.inSet ((standingEnded key s).port (keyOwner key)).pendingSet = true := by
  obtain ⟨hlist, -⟩ := endInFlightOf_arb key .cancelled s
  by_cases hw : ∃ e ∈ s.arb.list, e.key = key
  · rw [← hlist] at hw
    exact endPendingOf_outcome hw .cancelled
  · obtain ⟨c, hc, hk⟩ := h.resolve_left hw
    have hnone : ∀ e ∈ (endInFlightOf key .cancelled s).arb.list, e.key ≠ key :=
      fun e he hek => hw ⟨e, hlist ▸ he, hek⟩
    rw [standingEnded, endPendingOf_of_none hnone,
      endInFlightOf_of_flying ((flies_iff s key).mpr ⟨c, hc, hk⟩)]
    exact endInFlight_outcome hc hk .cancelled

theorem standingEnded_line (key : ChangeKey) (s : State) : (standingEnded key s).line = s.line := by
  have hline : (endInFlightOf key .cancelled s).line = s.line := by
    cases hf : flies s key with
    | false => rw [endInFlightOf_of_still hf]
    | true => rw [endInFlightOf_of_flying hf]; simp
  rw [standingEnded, endPendingOf, ← hline]
  simp

theorem takeAtOnce_taken (key : ChangeKey) (v : Int) (u : State) :
    TakenAtOnce key v u (takeAtOnce key v u) := by
  obtain ⟨harb, hspeed, hexhaust, hpoints⟩ := writeRecord_keeps key v (standingEnded key u)
  have hgone : ¬Standing (takeAtOnce key v u) key := by
    intro h
    have h : Standing (writeRecord key v (standingEnded key u)) key := arbiterPass_standing h
    rw [Standing, harb] at h
    exact standingEnded_gone key u h
  refine ⟨fun e he hk => hgone (.inl ⟨e, he, hk⟩), fun c hc hk => hgone (.inr ⟨c, hc, hk⟩),
    fun h => ?_, fun h => ?_, takeAtOnce_frame key v u⟩
  · obtain ⟨hout, hnoticed⟩ := standingEnded_outcome (s := u) h
    rw [takeAtOnce_eq, (arbiterPass_outcomes _).1, harb]
    refine ⟨hout, ?_⟩
    have hkeeps : KeepsPending (standingEnded key u)
        (arbiterPass (writeRecord key v (standingEnded key u))) :=
      .of_evolves (.trans (writeRecord_evolves _ _ _) (arbiterPass_evolves _))
    exact hkeeps _ _ hnoticed
  · have hempty : (standingEnded key u).arb.list = [] := by
      refine List.eq_nil_iff_forall_not_mem.mpr fun e he => ?_
      obtain ⟨hmem, hne⟩ := endPendingOf_keys e he
      rw [(endInFlightOf_arb key .cancelled u).1] at hmem
      exact hne (h e hmem)
    have hlist : (writeRecord key v (standingEnded key u)).arb.list = [] := by rw [harb]; exact hempty
    rw [takeAtOnce_eq, arbiterPass_of_empty hlist, hspeed, hexhaust, hpoints, standingEnded_line]
    exact ⟨hlist, rfl, rfl, rfl⟩

/-! ### The answers -/

section
variable {r : Request} {p : Port} {pl : List Byte} {s : State} {pr : Profile} {key : ChangeKey} {v : Int}
  {clamped : Bool} {rate : List Byte}

/-- A request whose handler takes its change at once. -/
theorem exec_takesAtOnce {P : Prop} [Decidable P] (ha : acceptedOn r p = true)
    (hl : lengthFits r pl.length = true) (hc : clamped = true ↔ P)
    (h : handlerOf r p pl (frameTaken p s) = answerAtOnce key v clamped rate (frameTaken p s)) :
    ∃ t, TakenAtOnce key v (frameTaken p s) t ∧
      exec (requestInstr r p pl) s =
        .next (answer p r.code (changeReply (if P then .clamped else .ok) v 0 .atOnce rate) t) := by
  refine ⟨_, takeAtOnce_taken key v (frameTaken p s), exec_answers ha hl (h.trans ?_)⟩
  rw [answerAtOnce, if_congr hc rfl rfl]

/-- A request whose handler has its change admitted. -/
theorem exec_admits (ha : acceptedOn r p = true) (hl : lengthFits r pl.length = true)
    (h : handlerOf r p pl (frameTaken p s) =
      answerAdmission pr key v clamped rate (frameTaken p s)) :
    exec (requestInstr r p pl) s =
      .next (admissionAnswer p r.code pr key v clamped rate (frameTaken p s)) := by
  rw [exec_taken s ha hl, h, answerAdmission, admissionAnswer]
  cases placeChange pr key v (frameTaken p s) <;> rfl

/-- A request refused with a code alone. -/
theorem exec_refuses {code : Result} (ha : acceptedOn r p = true)
    (hl : lengthFits r pl.length = true)
    (h : handlerOf r p pl (frameTaken p s) = .code (frameTaken p s) code) :
    exec (requestInstr r p pl) s = .next (answer p r.code [code.code] (frameTaken p s)) :=
  exec_answers ha hl h

end

/-! ### The handlers, case by case -/

section
variable {u : State} (h : u.prof.committed = none) (p : Port) (pl : List Byte)
include h

theorem handleSpeedRamp_uncommitted : handleSpeedRamp p pl u = .code u .refusedPhase := by
  simp only [handleSpeedRamp, h]

theorem handleExhaustTarget_uncommitted : handleExhaustTarget p pl u = .code u .refusedPhase := by
  simp only [handleExhaustTarget, h]

theorem handleZoneSetpoint_uncommitted : handleZoneSetpoint p pl u = .code u .refusedPhase := by
  simp only [handleZoneSetpoint, h]

theorem handleChillSetpoint_uncommitted : handleChillSetpoint p pl u = .code u .refusedPhase := by
  simp only [handleChillSetpoint, h]

end

section
variable {pr : Profile} {u : State} (hp : u.prof.committed = some pr) (p : Port) (pl : List Byte)
include hp

theorem handleSpeedRamp_down (h : fieldAt pl 0 2 ≤ u.line.speedGrant) :
    handleSpeedRamp p pl u =
      answerAtOnce .speed (max (fieldAt pl 0 2) pr.crawlLimit : Nat)
        (max (fieldAt pl 0 2) pr.crawlLimit != fieldAt pl 0 2 ||
          clampNat 1 pr.rampRateMax (fieldAt pl 2 2) != fieldAt pl 2 2)
        (u16 (clampNat 1 pr.rampRateMax (fieldAt pl 2 2))) u := by
  simp only [handleSpeedRamp, hp]
  exact if_pos h

theorem handleSpeedRamp_up (h : u.line.speedGrant < fieldAt pl 0 2) :
    handleSpeedRamp p pl u =
      if u.line.phase = .webBreak ∨ u.line.phase = .safe then .code u .refusedPhase
      else if min (fieldAt pl 0 2) u.env.ceiling ≤ u.line.speedGrant then
        { state := u
          payload := changeReply .clamped (min (fieldAt pl 0 2) u.env.ceiling : Nat) 0 .notAdmitted
            (u16 (clampNat 1 pr.rampRateMax (fieldAt pl 2 2))) }
      else
        answerAdmission pr .speed (min (fieldAt pl 0 2) u.env.ceiling : Nat)
          (min (fieldAt pl 0 2) u.env.ceiling != fieldAt pl 0 2 ||
            clampNat 1 pr.rampRateMax (fieldAt pl 2 2) != fieldAt pl 2 2)
          (u16 (clampNat 1 pr.rampRateMax (fieldAt pl 2 2))) u := by
  simp only [handleSpeedRamp, hp]
  exact if_neg (Nat.not_le.mpr h)

theorem handleExhaustTarget_eq :
    handleExhaustTarget p pl u =
      if u.line.exhaust ≤ fieldAt pl 0 2 ∨ u.line.phase.heated = false then
        answerAtOnce .exhaust (fieldAt pl 0 2) false [] u
      else answerAdmission pr .exhaust (fieldAt pl 0 2) false [] u := by
  simp only [handleExhaustTarget, hp]

theorem handleZoneSetpoint_unused (h : pr.dryers.length ≤ fieldAt pl 0 1) :
    handleZoneSetpoint p pl u = .code u .refusedRange := by
  simp only [handleZoneSetpoint, hp]
  exact if_neg (Nat.not_lt.mpr h)

/-- ZONE_SETPOINT in the heated phases: at once where the clamped value is the setpoint. -/
theorem handleZoneSetpoint_heated {e : ZoneItems} (he : pr.dryers[fieldAt pl 0 1]? = some e)
    (h : u.line.phase.heated) :
    let asked := signed16 (fieldAt pl 1 2)
    let v := min (max asked e.setMin) (min e.setMax (u.env.heatCaps.getD (fieldAt pl 0 1) 0))
    handleZoneSetpoint p pl u =
      if v = u.line.setpoints.getD (fieldAt pl 0 1) 0 then
        answerAtOnce (.zone (fieldAt pl 0 1)) v (v != asked) [] u
      else answerAdmission pr (.zone (fieldAt pl 0 1)) v (v != asked) [] u := by
  have hlt := (List.getElem?_eq_some_iff.mp he).1
  simp only [handleZoneSetpoint, hp, ← clampZone_eq he]
  exact (if_pos hlt).trans (if_pos h)

/-- ZONE_SETPOINT in COLD and PURGE: at once, clamped by the table alone. -/
theorem handleZoneSetpoint_cold {e : ZoneItems} (he : pr.dryers[fieldAt pl 0 1]? = some e)
    (h : u.line.phase = .cold ∨ u.line.phase = .purge) :
    let asked := signed16 (fieldAt pl 1 2)
    let v := min (max asked e.setMin) e.setMax
    handleZoneSetpoint p pl u = answerAtOnce (.zone (fieldAt pl 0 1)) v (v != asked) [] u := by
  have hlt := (List.getElem?_eq_some_iff.mp he).1
  have hcold : ¬u.line.phase.heated = true := by rcases h with h | h <;> rw [h] <;> decide
  simp only [handleZoneSetpoint, hp, ← clampSetpoint_eq (used_of_dryer he)]
  exact ((if_pos hlt).trans (if_neg hcold)).trans (if_pos h)

theorem handleZoneSetpoint_stopped (hz : fieldAt pl 0 1 < pr.dryers.length)
    (h : u.line.phase = .webBreak ∨ u.line.phase = .safe) :
    handleZoneSetpoint p pl u = .code u .refusedPhase := by
  have hhot : ¬u.line.phase.heated = true := by rcases h with h | h <;> rw [h] <;> decide
  have hcold : ¬(u.line.phase = .cold ∨ u.line.phase = .purge) := by
    rcases h with h | h <;> rw [h] <;> decide
  simp only [handleZoneSetpoint, hp]
  exact ((if_pos hz).trans (if_neg hhot)).trans (if_neg hcold)

theorem handleChillSetpoint_unused (h : fieldAt pl 0 1 < pr.dryers.length ∨
    pr.used.length ≤ fieldAt pl 0 1) : handleChillSetpoint p pl u = .code u .refusedRange := by
  simp only [handleChillSetpoint, hp]
  exact if_neg (by omega)

/-- CHILL_SETPOINT: at once but for a rise in the heated phases. -/
theorem handleChillSetpoint_used {e : ZoneItems} (hc : pr.dryers.length ≤ fieldAt pl 0 1)
    (he : pr.used[fieldAt pl 0 1]? = some e) :
    let asked := signed16 (fieldAt pl 1 2)
    let v := min (max asked e.setMin) e.setMax
    handleChillSetpoint p pl u =
      if u.line.phase.heated ∧ u.line.setpoints.getD (fieldAt pl 0 1) 0 < v then
        answerAdmission pr (.chill (fieldAt pl 0 1)) v (v != asked) [] u
      else answerAtOnce (.chill (fieldAt pl 0 1)) v (v != asked) [] u := by
  have hlt := (List.getElem?_eq_some_iff.mp he).1
  simp only [handleChillSetpoint, hp, ← clampSetpoint_eq he]
  exact if_pos ⟨hc, hlt⟩

end

/-! ### The statements -/

theorem either_clamped (a b c d : Nat) : (a != b || c != d) = true ↔ a ≠ b ∨ c ≠ d := by simp

theorem either_clamped_decide (a b c d : Nat) : (a != b || c != d) = decide (a ≠ b ∨ c ≠ d) := by
  rw [Bool.eq_iff_iff, either_clamped, decide_eq_true_iff]

theorem clamped_decide (a b : Int) : (a != b) = decide (a ≠ b) := by
  rw [Bool.eq_iff_iff, bne_iff_ne, decide_eq_true_iff]

/-- Settles O42: each handler reaches `takeAtOnce`, which is `TakenAtOnce`. -/
theorem changesTakenAtOnce : Obligations.ChangesTakenAtOnce := by
  intro pr pl s
  refine ⟨fun hp hlen hle => ?_, fun hp hlen hor => ?_,
    fun e hp hlen he => ⟨fun hcold => ?_, fun hheated hsame => ?_⟩, fun e hp hlen hc he hor => ?_⟩
  · exact exec_takesAtOnce (r := .speedRamp) rfl (by simp [hlen, lengthFits])
      (either_clamped _ _ _ _) (handleSpeedRamp_down hp .line pl hle)
  · exact exec_takesAtOnce (r := .exhaustTarget) (P := False) rfl (by simp [hlen, lengthFits])
      (by simp) ((handleExhaustTarget_eq hp .dryer pl).trans (if_pos hor))
  · exact exec_takesAtOnce (r := .zoneSetpoint) rfl (by simp [hlen, lengthFits]) bne_iff_ne
      (handleZoneSetpoint_cold hp .dryer pl he hcold)
  · exact exec_takesAtOnce (r := .zoneSetpoint) rfl (by simp [hlen, lengthFits]) bne_iff_ne
      ((handleZoneSetpoint_heated hp .dryer pl he hheated).trans (if_pos hsame))
  · refine exec_takesAtOnce (r := .chillSetpoint) rfl (by simp [hlen, lengthFits]) bne_iff_ne
      ((handleChillSetpoint_used hp .chill pl hc he).trans (if_neg ?_))
    rintro ⟨hheated, hlt⟩
    rcases hor with hcold | hle
    · exact absurd (hheated.symm.trans hcold) (by simp)
    · exact absurd hlt (not_lt.mpr hle)

/-- Settles O43: the handlers' tests in their order. -/
theorem unsafeChangesAreAdmitted : Obligations.UnsafeChangesAreAdmitted := by
  intro pr pl s
  refine ⟨fun hlen => ⟨fun hnone => ?_, fun hp hup => ⟨fun hstop => ?_, fun hb hs hle => ?_,
      fun hb hs hlt => ?_⟩⟩,
    fun hlen => ⟨fun hnone => ?_, fun hp hdown hheated => ?_⟩,
    fun hlen => ⟨fun hnone => ?_, fun hp hz => ?_, fun hp hz hstop => ?_,
      fun e hp he hheated hne => ?_⟩,
    fun hlen => ⟨fun hnone => ?_, fun hp hz => ?_, fun e hp hc he hheated hlt => ?_⟩⟩
  · exact exec_refuses (r := .speedRamp) rfl (by simp [hlen, lengthFits])
      (handleSpeedRamp_uncommitted hnone .line pl)
  · exact exec_refuses (r := .speedRamp) rfl (by simp [hlen, lengthFits])
      ((handleSpeedRamp_up hp .line pl hup).trans (if_pos hstop))
  · exact exec_answers (r := .speedRamp) rfl (by simp [hlen, lengthFits])
      (((handleSpeedRamp_up hp .line pl hup).trans (if_neg (not_or.mpr ⟨hb, hs⟩))).trans (if_pos hle))
  · rw [← either_clamped_decide]
    exact exec_admits (r := .speedRamp) rfl (by simp [hlen, lengthFits])
      (((handleSpeedRamp_up hp .line pl hup).trans (if_neg (not_or.mpr ⟨hb, hs⟩))).trans
        (if_neg (Nat.not_le.mpr hlt)))
  · exact exec_refuses (r := .exhaustTarget) rfl (by simp [hlen, lengthFits])
      (handleExhaustTarget_uncommitted hnone .dryer pl)
  · refine exec_admits (r := .exhaustTarget) rfl (by simp [hlen, lengthFits])
      ((handleExhaustTarget_eq hp .dryer pl).trans (if_neg ?_))
    exact not_or.mpr ⟨Nat.not_le.mpr hdown, by simp [hheated]⟩
  · exact exec_refuses (r := .zoneSetpoint) rfl (by simp [hlen, lengthFits])
      (handleZoneSetpoint_uncommitted hnone .dryer pl)
  · exact exec_refuses (r := .zoneSetpoint) rfl (by simp [hlen, lengthFits])
      (handleZoneSetpoint_unused hp .dryer pl hz)
  · exact exec_refuses (r := .zoneSetpoint) rfl (by simp [hlen, lengthFits])
      (handleZoneSetpoint_stopped hp .dryer pl hz hstop)
  · rw [← clamped_decide]
    exact exec_admits (r := .zoneSetpoint) rfl (by simp [hlen, lengthFits])
      ((handleZoneSetpoint_heated hp .dryer pl he hheated).trans (if_neg hne))
  · exact exec_refuses (r := .chillSetpoint) rfl (by simp [hlen, lengthFits])
      (handleChillSetpoint_uncommitted hnone .chill pl)
  · exact exec_refuses (r := .chillSetpoint) rfl (by simp [hlen, lengthFits])
      (handleChillSetpoint_unused hp .chill pl hz)
  · rw [← clamped_decide]
    exact exec_admits (r := .chillSetpoint) rfl (by simp [hlen, lengthFits])
      ((handleChillSetpoint_used hp .chill pl hc he).trans (if_pos ⟨hheated, hlt⟩))

end Sys2Proof.Machine
end

section
/-! PROOFS. Observations of the change in flight, and what a settled change does (R140, R142, R144). -/
namespace Sys2Proof.Machine

/-! ### What an observation is -/

/-- One more observation in tolerance counted (R140). -/
def inTolerance (s : State) : State :=
  s.setArb { s.arb with settleCount := min 255 (s.arb.settleCount + 1) }

section
variable {pr : Profile} {s : State} {o : Observation} {c : InFlight}
  (hp : s.prof.committed = some pr) (hc : s.arb.inFlight = some c)
include hp hc

theorem settleObserve_of_unseen (h : observes pr s o c.key = none) : settleObserve o s = s := by
  simp only [settleObserve, hp, hc, h]

theorem settleObserve_of_outside (h : observes pr s o c.key = some false) :
    settleObserve o s = s.setArb { s.arb with settleCount := 0 } := by
  simp only [settleObserve, hp, hc, h]

theorem settleObserve_of_inside (h : observes pr s o c.key = some true) :
    settleObserve o s =
      if pr.settleCount ≤ s.arb.settleCount + 1 then settleChange pr c (inTolerance s)
      else inTolerance s := by
  simp only [settleObserve, inTolerance, hp, hc, h]

end

theorem competes_iff (pr : Profile) (s : State) :
    competes pr s = true ↔ ∃ e ∈ s.arb.list,
      e.status = .queued ∧ keyOwner e.key ≠ .line ∧
        (pr.ports.get .line).priority ≤ priorityOf pr e.key ∧
        ∃ h, headroom pr s e.key e.value = some h := by
  simp only [competes, List.any_eq_true, Option.isSome_iff_exists, Bool.and_eq_true,
    beq_iff_eq, bne_iff_ne, decide_eq_true_iff, and_assoc]

/-- Headroom does not go by the arbiter. -/
theorem headroom_setArb (pr : Profile) (s : State) (a : Arbiter) (key : ChangeKey) (v : Int) :
    headroom pr (s.setArb a) key v = headroom pr s key v := by
  cases key <;> rfl

theorem competes_setArb (pr : Profile) (s : State) (a : Arbiter) (h : a.list = s.arb.list) :
    competes pr (s.setArb a) = competes pr s := by
  simp only [competes, headroom_setArb, setArb_arb, h]

/-! ### The remainder's place (R134) -/

theorem insertRemainder_head (r : PendingEntry) {l : List PendingEntry}
    (h : ∀ e ∈ l, e.ahead = false) : insertRemainder r l = r :: l := by
  cases l with
  | nil => rfl
  | cons e l =>
    have hany : ¬(e :: l).any (·.ahead) = true := by
      simpa [List.any_eq_true] using h
    rw [insertRemainder, if_neg hany]

theorem insertRemainder_behind (r : PendingEntry) {e : PendingEntry} (l : List PendingEntry)
    {m : List PendingEntry} (he : e.ahead = true) (h : ∀ x ∈ m, x.ahead = false) :
    insertRemainder r (l ++ e :: m) = l ++ e :: r :: m := by
  induction l with
  | nil =>
    have hany : (e :: m).any (·.ahead) = true := by simp [he]
    rw [List.nil_append, insertRemainder, if_pos hany, insertRemainder_head r h]
    rfl
  | cons x l ih =>
    have hany : (x :: (l ++ e :: m)).any (·.ahead) = true := by simp [he]
    rw [List.cons_append, insertRemainder, if_pos hany, ih]
    rfl

/-! ### A settled SPEED increment (R144) -/

section
variable {pr : Profile} {s : State} {c : InFlight}

/-- The next increment toward the target. -/
theorem speedStep_eq (v : Int) :
    speedStep pr s v = min (min v (s.line.speedGrant + pr.rampStep)) (s.env.ceiling : Int) := rfl

theorem settleSpeed_of_target (h : c.value ≤ s.line.speedGrant) :
    settleSpeed pr c s = arbiterPass (endInFlight .settled s) := if_pos h

theorem settleSpeed_of_growing (h : ¬c.value ≤ s.line.speedGrant)
    (hg : competes pr s = false ∧ (s.line.speedGrant : Int) < speedStep pr s c.value) :
    settleSpeed pr c s = burst pr c (speedStep pr s c.value) s :=
  (if_neg h).trans (if_pos hg)

theorem settleSpeed_of_full (h : ¬c.value ≤ s.line.speedGrant)
    (hg : ¬(competes pr s = false ∧ (s.line.speedGrant : Int) < speedStep pr s c.value))
    (hfull : Config.pendingCapacity ≤ s.arb.list.length) :
    settleSpeed pr c s = arbiterPass (endInFlight .settled s) :=
  ((if_neg h).trans (if_neg hg)).trans (if_pos hfull)

theorem settleSpeed_of_yield (h : ¬c.value ≤ s.line.speedGrant)
    (hg : ¬(competes pr s = false ∧ (s.line.speedGrant : Int) < speedStep pr s c.value))
    (hroom : ¬Config.pendingCapacity ≤ s.arb.list.length) :
    settleSpeed pr c s = arbiterPass (yieldChange pr c s) :=
  ((if_neg h).trans (if_neg hg)).trans (if_neg hroom)

theorem settleChange_of_speed (h : c.key = .speed) : settleChange pr c s = settleSpeed pr c s :=
  if_pos h

theorem settleChange_of_other (h : c.key ≠ .speed) :
    settleChange pr c s = arbiterPass (endInFlight .settled s) := if_neg h

/-- A burst moves the record on and keeps the change in flight. -/
theorem burst_keeps (hk : c.key = .speed) (g : Int) :
    (burst pr c g s).arb =
        { s.arb with
          inFlight := some { c with granted := g }
          settleCount := 0
          settleTimer := startMs pr.settleLimit } ∧
      (burst pr c g s).line.speedGrant = g.toNat := by
  obtain ⟨harb, hspeed, -⟩ := writeRecord_keeps c.key g
    (s.setArb
      { s.arb with
        inFlight := some { c with granted := g }
        settleCount := 0
        settleTimer := startMs pr.settleLimit })
  refine ⟨harb, hspeed.trans ?_⟩
  rw [hk]
  rfl

end

/-- Settles O47: the observation by its three results, and a settle by the kind of change. -/
theorem observationsSettle : Obligations.ObservationsSettle := by
  intro pr s c o hp hc
  refine ⟨competes_iff pr s, fun r l h => insertRemainder_head r h,
    fun r e l m he h => insertRemainder_behind r l he h, fun hk => by rw [hk]; rfl,
    fun hk => by rw [hk]; rfl, fun z e hk he => ?_, fun z e hk he => ?_,
    settleObserve_of_unseen hp hc, settleObserve_of_outside hp hc, fun h hlt hmax => ?_,
    fun h hle => ?_⟩
  · rw [hk, ← zoneOr_of_used he]
    rfl
  · rw [hk, ← zoneOr_of_used he]
    rfl
  · rw [settleObserve_of_inside hp hc h, if_neg (Nat.not_le.mpr hlt), inTolerance,
      Nat.min_eq_right hmax]
  · have ht : settleObserve o s = settleChange pr c (inTolerance s) :=
      (settleObserve_of_inside hp hc h).trans (if_pos hle)
    have hcompetes : competes pr (inTolerance s) = competes pr s := competes_setArb _ _ _ rfl
    have hends : ∀ t, t = arbiterPass (endInFlight .settled (inTolerance s)) →
        t.arb.outcomes.get (keyOwner c.key) =
            some { key := c.key, arrival := c.arrival, value := c.granted, reason := .settled } ∧
          Notice.changeDone.inSet (t.port (keyOwner c.key)).pendingSet = true ∧
          (s.arb.list = [] →
            t.arb.inFlight = none ∧ t.arb.settleCount = 0 ∧ t.arb.settleTimer = none ∧
            t.line = s.line) := by
      rintro t rfl
      obtain ⟨hout, hnoticed, hquiet⟩ :=
        arbiterPass_endInFlight (s := inTolerance s) hc .settled
      refine ⟨hout, hnoticed, fun hl => ?_⟩
      obtain ⟨hline, hnone, hcount, htimer⟩ := hquiet hl
      exact ⟨hnone, hcount, htimer, hline⟩
    have hstops : (competes pr s = true ∨
          ¬(s.line.speedGrant : Int) < speedStep pr (inTolerance s) c.value) →
        ¬(competes pr (inTolerance s) = false ∧
          ((inTolerance s).line.speedGrant : Int) < speedStep pr (inTolerance s) c.value) := by
      rw [hcompetes]
      rintro hyields ⟨hfree, hgrows⟩
      rcases hyields with hb | hn
      · exact absurd (hb.symm.trans hfree) (by simp)
      · exact hn hgrows
    have hframe := settleObserve_frame o s
    rw [ht] at hframe ⊢
    refine ⟨hframe, fun hk => hends _ (settleChange_of_other hk), fun hk htarget => ?_,
      fun hk htarget hyields hfull => ?_, fun hk htarget hyields => ?_,
      fun hk htarget hyields hroom => ?_⟩
    · exact hends _ ((settleChange_of_speed hk).trans (settleSpeed_of_target htarget))
    · have hout := (hends _ ((settleChange_of_speed hk).trans
        (settleSpeed_of_full htarget (hstops hyields) hfull))).1
      have howner : keyOwner c.key = .line := congrArg keyOwner hk
      rwa [howner] at hout
    · obtain ⟨hfree, hgrows⟩ := not_or.mp hyields
      obtain ⟨harb, hspeed⟩ := burst_keeps (pr := pr) (s := inTolerance s) hk
        (speedStep pr (inTolerance s) c.value)
      rw [settleChange_of_speed hk, settleSpeed_of_growing (s := inTolerance s) htarget
        ⟨hcompetes.trans (by simpa using hfree), not_not.mp hgrows⟩, harb]
      exact ⟨rfl, rfl, rfl, hspeed, rfl, rfl⟩
    · rw [settleChange_of_speed hk,
        settleSpeed_of_yield (s := inTolerance s) htarget (hstops hyields) (Nat.not_le.mpr hroom),
        (arbiterPass_outcomes _).1]
      exact ⟨rfl, rfl⟩

end Sys2Proof.Machine
end

section
/-! PROOFS. Entry to HEATING, the drain and what ends PRINTING (R87, R89, R91 to R97), the purge (R58, R59). -/
namespace Sys2Proof.Machine

/-! ### Entry to HEATING (R87) -/

section
variable {c : Cause} {s : State}

theorem enterHeating_line_of_ready (h : s.isReady = true) :
    (enterHeating c s).line =
      lineOnChange (writeReady true (phaseWrite .heating c s)) .ready .readyMet := by
  have hne : (writeReady true (phaseWrite .heating c s)).line.phase ≠ .ready := by simp
  rw [enterHeating_of_ready h, phaseWrite_line hne]

theorem enterHeating_line_of_unready (h : s.isReady = false) (hne : s.line.phase ≠ .heating) :
    (enterHeating c s).line = { lineOnChange s .heating c with ready := .fails } := by
  rw [enterHeating_of_unready h, ← phaseWrite_line hne]
  rfl

/-- The phase unit after an entry to HEATING from another phase. -/
theorem enterHeating_result (hne : s.line.phase ≠ .heating) :
    (s.isReady = true →
      (enterHeating c s).line.phase = .ready ∧ (enterHeating c s).line.cause = .readyMet ∧
        (enterHeating c s).line.permit = true ∧ (enterHeating c s).line.ready = .holds) ∧
      (s.isReady = false →
        (enterHeating c s).line.phase = .heating ∧ (enterHeating c s).line.cause = c ∧
          (enterHeating c s).line.permit = false ∧ (enterHeating c s).line.ready = .fails) ∧
      (enterHeating c s).line.purgeTimer = none ∧ (enterHeating c s).line.purgeVolume = 0 := by
  cases h : s.isReady with
  | true =>
    rw [enterHeating_line_of_ready h]
    exact ⟨fun _ => ⟨rfl, rfl, rfl, rfl⟩, fun hf => absurd hf (by simp), rfl, rfl⟩
  | false =>
    rw [enterHeating_line_of_unready h hne]
    exact ⟨fun hf => absurd hf (by simp), fun _ => ⟨rfl, rfl, rfl, rfl⟩, rfl, rfl⟩

theorem enterHeating_tested (c : Cause) (s : State) : (enterHeating c s).line.phase.tested = true := by
  cases h : s.isReady with
  | true => rw [enterHeating_of_ready h, phaseWrite_phase]; rfl
  | false =>
    have hphase : (enterHeating c s).line.phase = .heating := by
      rw [enterHeating_of_unready h]
      exact phaseWrite_phase _ _ _
    rw [hphase]
    rfl

theorem enterHeating_arb_of_empty (c : Cause) (hl : s.arb.list = []) :
    (enterHeating c s).arb = s.arb := by
  have hheating := phaseWrite_arb_of_empty (p := .heating) c hl (by simp)
  cases h : s.isReady with
  | true =>
    rw [enterHeating_of_ready h]
    exact (phaseWrite_arb_of_tested (s := writeReady true (phaseWrite .heating c s)) .readyMet
      ((tested_iff _).mpr (.inl (phaseWrite_phase _ _ _))) rfl).trans hheating
  | false => rw [enterHeating_of_unready h]; exact hheating

theorem enterHeating_idle (c : Cause) (s : State) : (enterHeating c s).env.idle = s.env.idle := by
  have hheating : (phaseWrite .heating c s).env.idle = s.env.idle := by
    by_cases hne : s.line.phase = .heating
    · rw [phaseWrite_same hne]
    · exact phaseWrite_idle hne
  cases h : s.isReady with
  | true =>
    have hne : (writeReady true (phaseWrite .heating c s)).line.phase ≠ .ready := by simp
    rw [enterHeating_of_ready h]
    exact (phaseWrite_idle hne).trans hheating
  | false => rw [enterHeating_of_unready h]; exact hheating

end

theorem enterHeating_linesFollow {s : State} (c : Cause) (hne : s.line.phase ≠ .heating) :
    LinesFollowPhase (enterHeating c s) := by
  cases hr : s.isReady with
  | false =>
    rw [enterHeating_of_unready hr]
    exact phaseWrite_linesFollow (c := c) hne
  | true =>
    rw [enterHeating_of_ready hr]
    exact phaseWrite_linesFollow (by simp)

/-- HEAT_INHIBIT is released in every heated phase of a state whose lines follow the phase. -/
theorem LinesFollowPhase.released {s : State} (h : LinesFollowPhase s) (hp : s.line.phase.heated) :
    s.line.heatInhibit = false := by
  rw [h.1, hp]
  rfl

theorem heated_of_tested {p : Phase} (h : p.tested = true) : p.heated = true := by
  rcases (tested_iff p).mp h with rfl | rfl <;> rfl

/-- A recheck keeps the web heated. -/
theorem Rechecked.heated {s t : State} (h : Rechecked s t) (hs : s.line.phase.heated) :
    t.line.phase.heated := by
  cases ht : s.line.phase.tested with
  | true => exact heated_of_tested (h.tested ht)
  | false => rw [(h.line ht).1]; exact hs

/-! ### The drain (R92, R93) -/

theorem drainNow_congr {s t : State} (hp : t.prof = s.prof) (hr : t.ring.records = s.ring.records) :
    t.drainNow = s.drainNow := by
  simp only [State.drainNow, hp, hr]

/-- The drain count: from the first PRINTED record to the end of the ring, 0 with none. -/
theorem drainCount_of_first {pr : Profile} {l : List SegRecord} {py : Nat} {r : SegRecord}
    (hr : l[py]? = some r) (hk : r.kind = .printed)
    (hfirst : ∀ q < py, ∀ x, l[q]? = some x → x.kind ≠ .printed) :
    drainCount pr l = pr.ringLength - py := by
  have hfind : l.findIdx? (fun r => r.kind == .printed) = some py := by
    obtain ⟨hlt, hget⟩ := List.getElem?_eq_some_iff.mp hr
    refine List.findIdx?_eq_some_iff_getElem.mpr ⟨hlt, by simp [hget, hk], fun q hq => ?_⟩
    have := hfirst q hq _ (List.getElem?_eq_getElem (hq.trans hlt))
    simpa using this
  rw [drainCount, hfind]

theorem drainCount_of_none {pr : Profile} {l : List SegRecord}
    (h : ∀ r ∈ l, r.kind ≠ .printed) : drainCount pr l = 0 := by
  have hfind : l.findIdx? (fun r => r.kind == .printed) = none := by
    simpa [List.findIdx?_eq_none_iff] using h
  rw [drainCount, hfind]

theorem drainNow_eq {s : State} {pr : Profile} (h : s.prof.committed = some pr) :
    s.drainNow = drainCount pr s.ring.records := by
  rw [State.drainNow, h]

/-- The phase a drain that ends goes to. -/
def State.afterDrain (s : State) : Phase := if s.isReady then .ready else .heating

/-- The result of the ready test as the phase unit holds it. -/
def State.testResult (s : State) : ReadyResult := if s.isReady then .holds else .fails

theorem afterDrain_tested (s : State) : s.afterDrain.tested = true := by
  unfold State.afterDrain
  split <;> rfl

theorem afterDrain_permit (s : State) :
    (s.afterDrain == .ready || s.afterDrain == .printing) = s.isReady := by
  unfold State.afterDrain
  cases s.isReady <;> rfl

section
variable {s : State} (h : s.line.phase = .draining)
include h

theorem endDrain_line :
    (endDrain s).line =
      { lineOnChange s s.afterDrain .drainDone with ready := s.testResult } := by
  unfold endDrain State.afterDrain State.testResult
  cases hr : s.isReady with
  | true =>
    have hne : (writeReady true s).line.phase ≠ .ready := by simp [h]
    exact phaseWrite_line hne
  | false =>
    have hne : (writeReady false s).line.phase ≠ .heating := by simp [h]
    have hunready : (writeReady false s).isReady = false :=
      (isReady_congr rfl rfl rfl rfl).trans hr
    exact enterHeating_line_of_unready hunready hne

theorem endDrain_log :
    (endDrain s).log =
      (logAppend (.phase .draining s.afterDrain .drainDone s.motion.vMeas) s).log := by
  unfold endDrain State.afterDrain
  cases hr : s.isReady with
  | true =>
    have hne : (writeReady true s).line.phase ≠ .ready := by simp [h]
    refine (phaseWrite_log hne).trans ?_
    rw [writeReady_phase, h]
    exact logAppend_log_congr _ rfl rfl
  | false =>
    have hne : (writeReady false s).line.phase ≠ .heating := by simp [h]
    have hunready : (writeReady false s).isReady = false :=
      (isReady_congr rfl rfl rfl rfl).trans hr
    refine (congrArg State.log (enterHeating_of_unready hunready)).trans
      ((phaseWrite_log (c := .drainDone) hne).trans ?_)
    rw [writeReady_phase, h]
    exact logAppend_log_congr _ rfl rfl

theorem endDrain_idle : (endDrain s).env.idle = s.env.idle := by
  unfold endDrain
  cases hr : s.isReady with
  | true =>
    have hne : (writeReady true s).line.phase ≠ .ready := by simp [h]
    exact phaseWrite_idle hne
  | false => exact enterHeating_idle .drainDone (writeReady false s)

end

theorem endDrain_arb_of_empty {s : State} (hl : s.arb.list = []) : (endDrain s).arb = s.arb := by
  unfold endDrain
  cases hr : s.isReady with
  | true => exact phaseWrite_arb_of_empty (s := writeReady true s) _ hl (by simp)
  | false => exact enterHeating_arb_of_empty (s := writeReady false s) _ hl

/-! ### PRINTING ends (R92) -/

/-- DRAINING entered with its drain count. -/
def drainEntered (c : Cause) (s : State) : State :=
  (phaseWrite .draining c s).setLine { (phaseWrite .draining c s).line with drain := s.drainNow }

theorem phaseWrite_drainNow (p : Phase) (c : Cause) (s : State) :
    (phaseWrite p c s).drainNow = s.drainNow := by
  have hframe := phaseWrite_frame p c s
  exact drainNow_congr hframe.prof (congrArg Ring.records hframe.ring)

theorem enterDraining_eq (c : Cause) (s : State) :
    enterDraining c s =
      if s.drainNow = 0 then endDrain (drainEntered c s) else drainEntered c s := by
  rw [enterDraining, phaseWrite_drainNow]
  rfl

theorem drainEntered_phase (c : Cause) (s : State) : (drainEntered c s).line.phase = .draining :=
  phaseWrite_phase .draining c s

theorem drainEntered_isReady (c : Cause) (s : State) : (drainEntered c s).isReady = s.isReady :=
  (isReady_congr rfl rfl rfl rfl).trans (phaseWrite_isReady .draining c s)

section
variable {c : Cause} {s : State} (h : s.line.phase ≠ .draining)
include h

theorem drainEntered_line :
    (drainEntered c s).line = { lineOnChange s .draining c with drain := s.drainNow } := by
  rw [← phaseWrite_line h]
  rfl

theorem drainEntered_log :
    (drainEntered c s).log = (logAppend (.phase s.line.phase .draining c s.motion.vMeas) s).log :=
  phaseWrite_log h

theorem enterDraining_idle : (enterDraining c s).env.idle = s.env.idle := by
  have hentered : (drainEntered c s).env.idle = s.env.idle := phaseWrite_idle h
  rw [enterDraining_eq]
  split
  · exact (endDrain_idle (drainEntered_phase c s)).trans hentered
  · exact hentered

end

theorem enterDraining_arb_of_empty {s : State} (c : Cause) (hl : s.arb.list = []) :
    (enterDraining c s).arb = s.arb := by
  have hentered : (drainEntered c s).arb = s.arb :=
    phaseWrite_arb_of_empty (p := .draining) c hl (by simp)
  rw [enterDraining_eq]
  split
  · exact (endDrain_arb_of_empty (hentered ▸ hl)).trans hentered
  · exact hentered

section
variable {c : Cause} {s : State} (h : s.line.phase = .printing)
include h

/-- A drain with something to drain. -/
theorem enterDraining_of_printed (hd : s.drainNow ≠ 0) :
    (enterDraining c s).line.phase = .draining ∧ (enterDraining c s).line.cause = c ∧
      (enterDraining c s).line.drain = s.drainNow := by
  have hne : s.line.phase ≠ .draining := by simp [h]
  rw [enterDraining_eq, if_neg hd, drainEntered_line hne]
  exact ⟨rfl, rfl, rfl⟩

theorem enterDraining_ends :
    (enterDraining c s).line.fill = 0 ∧ (enterDraining c s).line.run = none ∧
      (enterDraining c s).line.mark = s.line.mark ∧
      (enterDraining c s).line.stallGrace = s.line.stallGrace ∧
      (enterDraining c s).line.excess = s.line.excess ∧
      (enterDraining c s).line.speedGrant = s.line.speedGrant := by
  have hne : s.line.phase ≠ .draining := by simp [h]
  have hheated : s.line.phase.heated = true := by rw [h]; rfl
  have hentered : (drainEntered c s).line.fill = 0 ∧ (drainEntered c s).line.run = none ∧
      (drainEntered c s).line.mark = s.line.mark ∧
      (drainEntered c s).line.stallGrace = s.line.stallGrace ∧
      (drainEntered c s).line.excess = s.line.excess ∧
      (drainEntered c s).line.speedGrant = s.line.speedGrant := by
    obtain ⟨hgrace, hexcess⟩ := (lineOnChange_timers s .draining c).2.1 rfl hheated
    rw [drainEntered_line hne]
    exact ⟨if_pos h, if_pos h, rfl, hgrace, hexcess, rfl⟩
  rw [enterDraining_eq]
  split
  · obtain ⟨hf, hr, hm, hg, hx, hs⟩ := hentered
    have hphase := drainEntered_phase c s
    have hnp : (drainEntered c s).line.phase ≠ .printing := by simp [hphase]
    obtain ⟨hgrace, hexcess⟩ := (lineOnChange_timers (drainEntered c s)
      (drainEntered c s).afterDrain .drainDone).2.1 (heated_of_tested (afterDrain_tested _))
        (by rw [hphase]; rfl)
    rw [endDrain_line hphase]
    exact ⟨(if_neg hnp).trans hf, (if_neg hnp).trans hr, hm, hgrace.trans hg, hexcess.trans hx, hs⟩
  · exact hentered

/-- A drain of 0 ends at once. -/
theorem enterDraining_atOnce (hd : s.drainNow = 0) : DrainEndsAtOnce c s s (enterDraining c s) := by
  have hne : s.line.phase ≠ .draining := by simp [h]
  have hready := drainEntered_isReady c s
  have hentered := drainEntered_phase c s
  have hvmeas : (drainEntered c s).motion.vMeas = s.motion.vMeas :=
    congrArg Motion.vMeas (phaseWrite_frame .draining c s).motion
  have hline := endDrain_line hentered
  have hends := enterDraining_ends (c := c) h
  rw [enterDraining_eq, if_pos hd, hline] at hends
  obtain ⟨hfill, hrun, hmark, -⟩ := hends
  have hnew : (drainEntered c s).afterDrain = if s.isReady then .ready else .heating := by
    rw [State.afterDrain, hready]
  have hresult : (drainEntered c s).testResult = if s.isReady then .holds else .fails := by
    rw [State.testResult, hready]
  rw [DrainEndsAtOnce, enterDraining_eq, if_pos hd, hline]
  refine ⟨hnew, rfl, hresult, (afterDrain_permit _).trans hready, ?_, if_pos hentered, hfill, hrun,
    hmark, ?_⟩
  · change (!(drainEntered c s).afterDrain.heated) = false
    rw [heated_of_tested (afterDrain_tested _)]
    rfl
  · rw [endDrain_log hentered, hnew, hvmeas, ← h]
    refine logAppend_log_congr _ (drainEntered_log hne) ?_
    exact (phaseWrite_frame .draining c s).time.trans (logAppend_frame _ s).1.symm

theorem enterDraining_linesFollow : LinesFollowPhase (enterDraining c s) := by
  have hne : s.line.phase ≠ .draining := by simp [h]
  have hentered : LinesFollowPhase (drainEntered c s) := phaseWrite_linesFollow hne
  rw [enterDraining_eq]
  split
  · exact linesFollowPhase_invariant.evolves (endDrain_evolves _) hentered
  · exact hentered

theorem enterDraining_heated : (enterDraining c s).line.phase.heated = true := by
  by_cases hd : s.drainNow = 0
  · rw [(enterDraining_atOnce h hd).1]
    cases s.isReady <;> rfl
  · rw [(enterDraining_of_printed h hd).1]
    rfl

end

/-- A drain that ended at once, seen from a state that differs from the one PRINTING ended in. -/
theorem DrainEndsAtOnce.congr {c : Cause} {s u b d t : State} (h : DrainEndsAtOnce c u b t)
    (hready : u.isReady = s.isReady) (hmark : u.line.mark = s.line.mark)
    (hv : u.motion.vMeas = s.motion.vMeas) (hl : b.log = d.log) (ht : b.time = d.time) :
    DrainEndsAtOnce c s d t := by
  obtain ⟨hphase, hcause, hresult, hpermit, hinhibit, hdrain, hfill, hrun, hmark', hlog⟩ := h
  rw [hready] at hphase hresult hpermit hlog
  rw [hv] at hlog
  refine ⟨hphase, hcause, hresult, hpermit, hinhibit, hdrain, hfill, hrun, hmark'.trans hmark,
    hlog.trans ?_⟩
  refine logAppend_log_congr _ (logAppend_log_congr _ hl ht) ?_
  exact (logAppend_frame _ b).1.trans (ht.trans (logAppend_frame _ d).1.symm)

/-! ### PURGE ends (R58, R59) -/

/-- A purge expiry counted: the timer restarted, the volume grown or back to 0. -/
def purgeCounted (pr : Profile) (s : State) : State :=
  s.setLine
    { s.line with purgeTimer := some Config.purgeLength, purgeVolume := purgeVolumeAfter pr s }

theorem purgeExpiry_eq (pr : Profile) (s : State) :
    purgeExpiry pr s =
      if pr.purgeVolume ≤ purgeVolumeAfter pr s then
        arbiterPass (enterHeating .purgeDone (purgeCounted pr s))
      else purgeCounted pr s := rfl

theorem exec_purgeTimerExpiry_stopped {s : State} (h : s.line.purgeTimer = none) :
    exec .purgeTimerExpiry s = .next s := by
  show execPurgeTimerExpiry s = _
  rw [execPurgeTimerExpiry, h]

theorem exec_purgeTimerExpiry_running {pr : Profile} {s : State} (hp : s.prof.committed = some pr)
    (hrun : s.line.purgeTimer.isSome) (hphase : s.line.phase = .purge) :
    exec .purgeTimerExpiry s = .next (purgeExpiry pr s) := by
  obtain ⟨n, hn⟩ := Option.isSome_iff_exists.mp hrun
  show execPurgeTimerExpiry s = _
  rw [execPurgeTimerExpiry, hn, hp]
  exact if_pos hphase

/-- Settles O20: the volume decides between the restarted timer and the entry to HEATING. -/
theorem purgeExpiryRule : Obligations.PurgeExpiry := by
  refine ⟨fun s => exec_purgeTimerExpiry_stopped, fun pr s hp hrun hphase => ?_⟩
  have hexec := exec_purgeTimerExpiry_running hp hrun hphase
  refine ⟨fun hlt => ?_, fun hle => ?_⟩
  · rw [hexec, purgeExpiry_eq]
    exact congrArg Host.Outcome.next (if_neg (Nat.not_le.mpr hlt))
  · have hne : (purgeCounted pr s).line.phase ≠ .heating := by simp [purgeCounted, hphase]
    have hready : (purgeCounted pr s).isReady = readyTest pr s :=
      (isReady_congr rfl rfl rfl rfl).trans (isReady_eq hp)
    obtain ⟨hmet, hunmet, htimer, hvolume⟩ := enterHeating_result (c := .purgeDone) hne
    have hpass := Rechecked.arbiterPass (enterHeating .purgeDone (purgeCounted pr s))
    have htested := hpass.tested (enterHeating_tested _ _)
    have hlines := linesFollowPhase_invariant.evolves (arbiterPass_evolves _)
      (enterHeating_linesFollow .purgeDone hne)
    have hcounted : KeepsPlant s (purgeCounted pr s) := by simp [KeepsPlant, purgeCounted]
    rw [hexec, purgeExpiry_eq]
    refine ⟨_, congrArg Host.Outcome.next (if_pos hle),
      hcounted.trans ((enterHeating_frame _ _).trans (arbiterPass_frame _)),
      hpass.purge.1 htimer, hpass.purge.2 hvolume, hlines.released (heated_of_tested htested),
      (tested_iff _).mp htested, fun hl => ?_⟩
    have hlist : (enterHeating .purgeDone (purgeCounted pr s)).arb.list = [] :=
      (congrArg Arbiter.list (enterHeating_arb_of_empty (s := purgeCounted pr s) .purgeDone hl)).trans hl
    rw [arbiterPass_of_empty hlist, ← hready]
    exact ⟨hmet, hunmet⟩

/-! ### IMPRESSION_OFF (R89) -/

theorem exec_impressionOff_of_printing {s : State}
    (h : (frameTaken .line s).line.phase = .printing) :
    exec (.impressionOff .line []) s =
      .next (answer .line 0x22 [0x00]
        (arbiterPass (enterDraining .impressionOff (frameTaken .line s)))) := by
  refine exec_answers (r := .impressionOff) rfl rfl ?_
  simp only [handlerOf, handleImpressionOff]
  exact if_pos h

/-- Settles O35: the drain by its count. -/
theorem impressionOff : Obligations.ImpressionOff := by
  intro s
  refine ⟨fun h => ?_, fun pr hp h => ?_⟩
  · refine exec_refuses (r := .impressionOff) (code := .ok) rfl rfl ?_
    exact if_neg h
  · have hpass := Rechecked.arbiterPass (enterDraining .impressionOff (frameTaken .line s))
    obtain ⟨hfill, hrun, -⟩ := enterDraining_ends (c := .impressionOff) h
    obtain ⟨kfill, krun, kdrain, -⟩ := hpass.counts
    have hlines := linesFollowPhase_invariant.evolves (arbiterPass_evolves _)
      (enterDraining_linesFollow (c := .impressionOff) h)
    have hnow := drainNow_eq hp
    have hnp : (arbiterPass (enterDraining .impressionOff (frameTaken .line s))).line.phase ≠
        .printing := by
      by_cases hd : (frameTaken .line s).drainNow = 0
      · have htested : (enterDraining .impressionOff (frameTaken .line s)).line.phase.tested = true := by
          rw [(enterDraining_atOnce h hd).1]
          cases (frameTaken .line s).isReady <;> rfl
        rcases (tested_iff _).mp (hpass.tested htested) with h | h <;> simp [h]
      · have hphase := (enterDraining_of_printed (c := .impressionOff) h hd).1
        rw [(hpass.line (by rw [hphase]; rfl)).1, hphase]
        simp
    refine ⟨_, exec_impressionOff_of_printing h, (enterDraining_frame _ _).trans (arbiterPass_frame _),
      kfill.trans hfill, krun.trans hrun, ?_, fun py r hr hk hfirst hlt => ?_, fun hnone => ?_⟩
    · rw [hlines.2, beq_false_of_ne hnp, Bool.or_false]
    · have hd : (frameTaken .line s).drainNow = pr.ringLength - py :=
        hnow.trans (drainCount_of_first hr hk hfirst)
      obtain ⟨hphase, hcause, hdrain⟩ :=
        enterDraining_of_printed (c := .impressionOff) h (by omega)
      obtain ⟨kphase, kcause, -⟩ := hpass.line (by rw [hphase]; rfl)
      exact ⟨kphase.trans hphase, kcause.trans hcause, kdrain.trans (hdrain.trans hd)⟩
    · have hd : (frameTaken .line s).drainNow = 0 := hnow.trans (drainCount_of_none hnone)
      obtain ⟨hphase, -, -, -, -, hdrain, -⟩ := enterDraining_atOnce (c := .impressionOff) h hd
      have htested : (enterDraining .impressionOff (frameTaken .line s)).line.phase.tested = true := by
        rw [hphase]
        cases (frameTaken .line s).isReady <;> rfl
      exact ⟨((tested_iff _).mp (hpass.tested htested)).symm, kdrain.trans hdrain⟩

end Sys2Proof.Machine
end

section
/-! PROOFS. The counts at an ADVANCE and the excess-speed test (R90 to R93, R96), the grace expiries (R95, R97). -/
namespace Sys2Proof.Machine

/-! ### The excess-speed test (R96) -/

section
variable {pr : Profile} {ceiling : Nat} {s : State}

theorem excessTest_of_cold (h : s.line.phase.heated = false) : excessTest pr ceiling s = s :=
  if_neg (by simp [h])

theorem excessTest_of_fast (h : s.line.phase.heated)
    (hv : min ceiling s.line.speedGrant + pr.speedTol < s.motion.vMeas) :
    excessTest pr ceiling s =
      match s.line.excess with
      | some _ => s
      | none => s.setLine { s.line with excess := startMs pr.excessGrace } :=
  (if_pos h).trans (if_pos hv)

theorem excessTest_of_slow (h : s.line.phase.heated)
    (hv : ¬min ceiling s.line.speedGrant + pr.speedTol < s.motion.vMeas) :
    excessTest pr ceiling s = s.setLine { s.line with excess := none } :=
  (if_pos h).trans (if_neg hv)

end

/-! ### The fill count (R90) -/

section
variable {s : State}

theorem fillStep_of_uncounted (h : s.counted = false) : fillStep s = s := if_neg (by simp [h])

theorem fillStep_of_filled (h : s.line.fill = 0) : fillStep s = s := if_neg (by simp [h])

/-- The state with one PRINTED record less to fill. -/
def fillCounted (s : State) : State := s.setLine { s.line with fill := s.line.fill - 1 }

theorem fillStep_of_filling (hc : s.counted = true) (h : 1 < s.line.fill) :
    fillStep s = fillCounted s :=
  (if_pos ⟨hc, by omega⟩).trans (if_neg (by omega))

theorem fillStep_of_last (hc : s.counted = true) (h : s.line.fill = 1) :
    fillStep s = recompute (logAppend (.filled s.motion.vMeas) (fillCounted s)) :=
  (if_pos ⟨hc, by omega⟩).trans (if_pos h)

/-- The fill count reaches 0: FILLED is logged and the envelope recomputed without its component. -/
theorem fillStep_filled (hc : s.counted = true) (h : s.line.fill = 1) :
    (fillStep s).line = { s.line with fill := 0 } ∧
      (fillStep s).log = (logAppend (.filled s.motion.vMeas) s).log ∧
      (fillStep s).env = envelopeOf (s.setLine { s.line with fill := 0 }) := by
  have hcounted : fillCounted s = s.setLine { s.line with fill := 0 } := by
    rw [fillCounted, h]
  rw [fillStep_of_last hc h, hcounted]
  have happend := logAppend_frame (.filled s.motion.vMeas) (s.setLine { s.line with fill := 0 })
  have hfeeds : SameFeeds (s.setLine { s.line with fill := 0 })
      (logAppend (.filled s.motion.vMeas) (s.setLine { s.line with fill := 0 })) :=
    .of_line (by simp [KeepsPlant]) happend.2.2.2.2.2.2.1
  refine ⟨?_, ?_, ?_⟩
  · simp
  · have hlog := (recompute_frame
      (logAppend (.filled s.motion.vMeas) (s.setLine { s.line with fill := 0 }))).2.2.2.2.2.2.2.2.1
    exact hlog.trans (logAppend_log_congr _ rfl rfl)
  · rw [recompute_env]
    exact hfeeds.envelope (congrArg Envelope.idle happend.2.2.2.2.2.1)

end

/-! ### The run count (R91) -/

theorem raiseAt_noticed (k : Notice) (p : Port) (s : State) :
    k.inSet ((raiseAt k p s).port p).pendingSet = true := by
  simp [raiseAt]

section
variable {s : State}

theorem runStep_of_none (h : s.line.run = none) : runStep s = s := by
  rw [runStep, h]

theorem runStep_of_uncounted (h : s.counted = false) : runStep s = s := by
  unfold runStep
  split
  · rfl
  · exact if_neg (by simp [h])

variable {r : RunCount} (hr : s.line.run = some r) (hc : s.counted = true)
include hr hc

theorem runStep_of_running (h : 1 < r.current) :
    runStep s = s.setLine { s.line with run := some { r with current := r.current - 1 } } := by
  simp only [runStep, hr]
  exact (if_pos hc).trans (if_neg (by omega))

theorem runStep_of_last (h : r.current ≤ 1) : runStep s = runEnd r s := by
  simp only [runStep, hr]
  exact (if_pos hc).trans (if_pos h)

end

/-- A run that repeats starts again, marked (R91). -/
theorem runEnd_repeats {r : RunCount} (h : r.repeats = true) (s : State) :
    (runEnd r s).line =
        { s.line with
          run := some { r with current := r.base }, mark := min 65535 (s.line.mark + 1) } ∧
      (runEnd r s).log = (logAppend (.runMark (min 65535 (s.line.mark + 1))) s).log ∧
      Notice.runMark.inSet ((runEnd r s).port .line).pendingSet = true := by
  have heq : runEnd r s =
      raiseAt .runMark .line (logAppend (.runMark (min 65535 (s.line.mark + 1)))
        (s.setLine
          { s.line with
            run := some { r with current := r.base }, mark := min 65535 (s.line.mark + 1) })) :=
    if_pos h
  rw [heq]
  refine ⟨by simp, ?_, raiseAt_noticed _ _ _⟩
  rw [(raiseAt_frame _ _ _).2.2.2.2.2.2.2.2.2.1]
  exact logAppend_log_congr _ rfl rfl

/-- A run that does not repeat, counted out. -/
def runSpent (r : RunCount) (s : State) : State :=
  raiseAt .runMark .line (s.setLine { s.line with run := some { r with current := 0 } })

theorem runEnd_ends {r : RunCount} (h : r.repeats = false) (s : State) :
    runEnd r s = enterDraining .runEnd (runSpent r s) := if_neg (by simp [h])

theorem runSpent_keeps (r : RunCount) (s : State) :
    (runSpent r s).line = { s.line with run := some { r with current := 0 } } ∧
      (runSpent r s).drainNow = s.drainNow ∧ (runSpent r s).isReady = s.isReady ∧
      (runSpent r s).motion = s.motion ∧ (runSpent r s).log = s.log ∧
      (runSpent r s).time = s.time := ⟨rfl, rfl, rfl, rfl, rfl, rfl⟩

theorem enterDraining_keepsPending (c : Cause) (s : State) : KeepsPending s (enterDraining c s) :=
  .of_evolves (enterDraining_evolves c s)

/-! ### The drain count (R92, R93) -/

section
variable {s : State}

theorem drainStep_of_idle (h : s.line.phase ≠ .draining ∨ s.drained = false ∨ s.line.drain = 0) :
    drainStep s = s := by
  refine if_neg fun ⟨hp, hd, hpos⟩ => ?_
  rcases h with h | h | h
  · exact h hp
  · exact absurd (hd.symm.trans h) (by simp)
  · omega

/-- The state with one position less to drain. -/
def drainCounted (s : State) : State := s.setLine { s.line with drain := s.line.drain - 1 }

theorem drainStep_of_draining (hp : s.line.phase = .draining) (hd : s.drained = true)
    (h : 1 < s.line.drain) : drainStep s = drainCounted s :=
  (if_pos ⟨hp, hd, by omega⟩).trans (if_neg (by omega))

theorem drainStep_of_last (hp : s.line.phase = .draining) (hd : s.drained = true)
    (h : s.line.drain = 1) : drainStep s = endDrain (drainCounted s) :=
  (if_pos ⟨hp, hd, by omega⟩).trans (if_pos h)

end

/-- Settles O36: each count by the cases of its step. -/
theorem countsAtAdvance : Obligations.CountsAtAdvance := by
  intro s
  refine ⟨fun pr ceiling => ⟨excessTest_of_cold, fun hh hv hx => ?_, fun hh hv hx => ?_,
      excessTest_of_slow⟩, fun h => ⟨fillStep_of_uncounted h, runStep_of_uncounted h⟩,
    fillStep_of_filled, runStep_of_none, fillStep_of_filling, fillStep_filled,
    fun r hr hc => ⟨runStep_of_running hr hc, fun h hrep => ?_, fun h hrep hp hd => ?_,
      fun h hrep hp hd => ?_⟩,
    drainStep_of_idle, drainStep_of_draining, fun hp hd h => ?_⟩
  · obtain ⟨x, hx⟩ := Option.isSome_iff_exists.mp hx
    rw [excessTest_of_fast hh hv, hx]
  · rw [excessTest_of_fast hh hv, hx]
    rfl
  · rw [runStep_of_last hr hc h]
    exact runEnd_repeats hrep s
  all_goals try rw [runStep_of_last hr hc h, runEnd_ends hrep]
  · have hphase : (runSpent r s).line.phase = .printing := hp
    obtain ⟨hdraining, hcause, hdrain⟩ := enterDraining_of_printed (c := .runEnd) hphase hd
    obtain ⟨-, hrun, -⟩ := enterDraining_ends (c := .runEnd) hphase
    exact ⟨hdraining, hcause, hrun, hdrain, enterDraining_keepsPending _ _ _ _ (raiseAt_noticed _ _ _)⟩
  · have hphase : (runSpent r s).line.phase = .printing := hp
    exact ⟨(enterDraining_atOnce hphase hd).congr rfl rfl rfl rfl rfl,
      enterDraining_keepsPending _ _ _ _ (raiseAt_noticed _ _ _)⟩
  · have hphase : (drainCounted s).line.phase = .draining := hp
    have hready : (drainCounted s).isReady = s.isReady := rfl
    rw [drainStep_of_last hp hd h, endDrain_line hphase, State.afterDrain, State.testResult, hready]
    refine ⟨if_pos hphase, fun hr => ?_, fun hr => ?_⟩ <;> rw [hr] <;> exact ⟨rfl, rfl, rfl⟩

/-! ### The stall grace expiry (R95) -/

/-- The web is taken for idle: the envelope with the idle flag set. -/
def idleTaken (s : State) : State :=
  recompute (setIdle true (s.setLine { s.line with stallGrace := none }))

theorem idleTaken_line (s : State) : (idleTaken s).line = { s.line with stallGrace := none } := by
  simp [idleTaken]

theorem idleTaken_frame (s : State) : KeepsPlant s (idleTaken s) := by
  simp [KeepsPlant, idleTaken]

theorem idleTaken_arb (s : State) : (idleTaken s).arb = s.arb := by
  simp [idleTaken]

theorem idleTaken_log (s : State) : (idleTaken s).log = s.log := by
  simp [idleTaken]

theorem idleTaken_idle (s : State) : (idleTaken s).env.idle = true := by
  simp [idleTaken]

theorem idleTaken_isReady (s : State) : (idleTaken s).isReady = s.isReady := by
  have hframe := idleTaken_frame s
  refine isReady_congr hframe.prof (congrArg Ring.inputs hframe.ring) ?_ hframe.flow
  rw [idleTaken_line]

theorem idleTaken_drainNow (s : State) : (idleTaken s).drainNow = s.drainNow :=
  drainNow_congr (idleTaken_frame s).prof (congrArg Ring.records (idleTaken_frame s).ring)

theorem stallGraceEnds_of_printing {s : State} (h : s.line.phase = .printing) :
    stallGraceEnds s = arbiterPass (enterDraining .stall (idleTaken s)) := by
  have hphase : (idleTaken s).line.phase = .printing := by rw [idleTaken_line]; exact h
  exact congrArg arbiterPass (if_pos hphase)

theorem stallGraceEnds_of_other {s : State} (h : s.line.phase ≠ .printing) :
    stallGraceEnds s = arbiterPass (idleTaken s) := by
  have hphase : ¬(idleTaken s).line.phase = .printing := by rw [idleTaken_line]; exact h
  exact congrArg arbiterPass (if_neg hphase)

/-- In the heated phases the idle web's heat caps are lowered to IDLE_TEMP (R73). -/
theorem idle_heatCaps {s : State} {pr : Profile} (he : EnvelopeCurrent s) (hi : s.env.idle = true)
    (hh : s.line.phase.heated) (hp : s.prof.committed = some pr) :
    s.env.heatCaps = pr.dryers.map (fun e => min e.setMax pr.idleTemp) := by
  have henv : s.env = envelopeOf s := he
  rw [henv, envelopeOf_heatCaps hp]
  simp [heatCap, hh, hi]

/-- What a stall grace expiry leaves, whatever the heated phase. -/
theorem stallGraceEnds_keeps {s : State} (h : s.line.phase.heated) :
    KeepsPlant s (stallGraceEnds s) ∧ (stallGraceEnds s).line.stallGrace = none ∧
      (stallGraceEnds s).env.idle = true ∧ (stallGraceEnds s).line.phase.heated ∧
      EnvelopeCurrent (stallGraceEnds s) := by
  have hcurrent : EnvelopeCurrent (idleTaken s) := recompute_envelopeCurrent _
  by_cases hp : s.line.phase = .printing
  · have hphase : (idleTaken s).line.phase = .printing := by rw [idleTaken_line]; exact hp
    obtain ⟨-, -, -, hgrace, -⟩ := enterDraining_ends (c := .stall) hphase
    have hpass := Rechecked.arbiterPass (enterDraining .stall (idleTaken s))
    rw [stallGraceEnds_of_printing hp]
    refine ⟨(idleTaken_frame s).trans ((enterDraining_frame _ _).trans (arbiterPass_frame _)), ?_, ?_,
      hpass.heated (enterDraining_heated hphase),
      (arbiterPass_current _).env ((enterDraining_current _ _).env hcurrent)⟩
    · rw [hpass.counts.2.2.2.2.1, hgrace, idleTaken_line]
    · rw [hpass.idle, enterDraining_idle (by simp [hphase]), idleTaken_idle]
  · have hpass := Rechecked.arbiterPass (idleTaken s)
    rw [stallGraceEnds_of_other hp]
    refine ⟨(idleTaken_frame s).trans (arbiterPass_frame _), ?_, hpass.idle.trans (idleTaken_idle s),
      hpass.heated ?_, (arbiterPass_current _).env hcurrent⟩
    · rw [hpass.counts.2.2.2.2.1, idleTaken_line]
    · rw [idleTaken_line]
      exact h

/-! ### The excess expiry (R97) -/

/-- EXCESS raised, the timer stopped. -/
def excessTaken (s : State) : State := raiseAll .excess (s.setLine { s.line with excess := none })

theorem excessTaken_noticed (s : State) (p : Port) :
    Notice.excess.inSet ((excessTaken s).port p).pendingSet = true := by
  simp [excessTaken, raiseAll]

theorem excessTaken_frame (s : State) : KeepsPlant s (excessTaken s) := by
  simp [KeepsPlant, excessTaken]

theorem excessEnds_of_printing {s : State} (h : s.line.phase = .printing) :
    excessEnds s = arbiterPass (enterDraining .excess (excessTaken s)) := if_pos h

theorem excessEnds_of_other {s : State} (h : s.line.phase ≠ .printing) :
    excessEnds s = excessTaken s := if_neg h

/-- A pass raises the granted speed or leaves it. -/
theorem arbiterPass_speedGrant_le (s : State) :
    s.line.speedGrant ≤ (arbiterPass s).line.speedGrant := by
  rcases arbiterPass_cases s with heq | ⟨pr, c, -, -, ⟨-, -, hroom⟩, heq⟩
  · rw [heq]
  · rw [heq, (grantChange_keeps pr c s).2.1]
    cases hk : c.entry.key with
    | speed =>
      rw [hk, headroom_speed] at hroom
      split at hroom
      · next hlt =>
        have hg := Option.some.inj hroom
        change s.line.speedGrant ≤ c.granted.toNat
        omega
      · exact absurd hroom (by simp)
    | exhaust => exact Nat.le_refl _
    | zone z => exact Nat.le_refl _
    | chill z => exact Nat.le_refl _

/-- What an excess expiry in PRINTING leaves. -/
theorem excessEnds_keeps {s : State} (h : s.line.phase = .printing) :
    KeepsPlant s (excessEnds s) ∧ (excessEnds s).line.excess = none ∧
      s.line.speedGrant ≤ (excessEnds s).line.speedGrant ∧
      ∀ p, Notice.excess.inSet ((excessEnds s).port p).pendingSet = true := by
  have hphase : (excessTaken s).line.phase = .printing := h
  obtain ⟨-, -, -, -, hexcess, hspeed⟩ := enterDraining_ends (c := .excess) hphase
  have hpass := Rechecked.arbiterPass (enterDraining .excess (excessTaken s))
  rw [excessEnds_of_printing h]
  refine ⟨(excessTaken_frame s).trans ((enterDraining_frame _ _).trans (arbiterPass_frame _)),
    hpass.counts.2.2.2.2.2.1.trans hexcess, ?_, fun p => ?_⟩
  · exact hspeed.symm.le.trans (arbiterPass_speedGrant_le _)
  · exact KeepsPending.of_evolves (.trans (enterDraining_evolves _ _) (arbiterPass_evolves _)) _ _
      (excessTaken_noticed s p)

/-- A pass after PRINTING ended with something to drain keeps DRAINING. -/
theorem passed_draining {c : Cause} {s : State} (h : s.line.phase = .printing) (hd : s.drainNow ≠ 0) :
    (arbiterPass (enterDraining c s)).line.phase = .draining ∧
      (arbiterPass (enterDraining c s)).line.cause = c ∧
      (arbiterPass (enterDraining c s)).line.drain = s.drainNow := by
  obtain ⟨hphase, hcause, hdrain⟩ := enterDraining_of_printed (c := c) h hd
  have hpass := Rechecked.arbiterPass (enterDraining c s)
  obtain ⟨kphase, kcause, -⟩ := hpass.line (by rw [hphase]; rfl)
  exact ⟨kphase.trans hphase, kcause.trans hcause, hpass.counts.2.2.1.trans hdrain⟩

/-- With nothing waiting a pass adds nothing to the end of PRINTING. -/
theorem passed_of_empty {s : State} (c : Cause) (hl : s.arb.list = []) :
    arbiterPass (enterDraining c s) = enterDraining c s :=
  arbiterPass_of_empty ((congrArg Arbiter.list (enterDraining_arb_of_empty c hl)).trans hl)

/-! ### The statement -/

theorem exec_stallGraceExpiry_running {s : State} (h : s.line.stallGrace.isSome) :
    exec .stallGraceExpiry s = .next (stallGraceEnds s) := by
  obtain ⟨n, hn⟩ := Option.isSome_iff_exists.mp h
  show execStallGraceExpiry s = _
  rw [execStallGraceExpiry, hn]

theorem exec_excessTimerExpiry_running {s : State} (h : s.line.excess.isSome) :
    exec .excessTimerExpiry s = .next (excessEnds s) := by
  obtain ⟨n, hn⟩ := Option.isSome_iff_exists.mp h
  show execExcessTimerExpiry s = _
  rw [execExcessTimerExpiry, hn]

/-- Settles O37: the idle flag or the notice first, then the end of PRINTING. -/
theorem graceExpiries : Obligations.GraceExpiries := by
  intro s
  refine ⟨fun h => ?_, fun h => ?_, fun hrun hh => ?_, fun hrun hp => ?_, fun hrun hp hd => ?_,
    fun hrun hp hd => ?_⟩
  · show execStallGraceExpiry s = _
    rw [execStallGraceExpiry, h]
  · show execExcessTimerExpiry s = _
    rw [execExcessTimerExpiry, h]
  · obtain ⟨hframe, hgrace, hidle, hheated, hcurrent⟩ := stallGraceEnds_keeps hh
    refine ⟨_, exec_stallGraceExpiry_running hrun, hframe, hgrace, hidle,
      fun pr hpr => idle_heatCaps hcurrent hidle hheated (hframe.prof ▸ hpr), fun hp hd => ?_,
      fun hp hd hl => ?_, fun hp hl => ?_⟩
    · rw [← idleTaken_drainNow] at hd ⊢
      rw [stallGraceEnds_of_printing hp]
      exact passed_draining (by rw [idleTaken_line]; exact hp) hd
    · rw [← idleTaken_drainNow] at hd
      rw [stallGraceEnds_of_printing hp, passed_of_empty .stall (by rw [idleTaken_arb]; exact hl)]
      refine (enterDraining_atOnce (by rw [idleTaken_line]; exact hp) hd).congr (idleTaken_isReady s)
        ?_ (congrArg Motion.vMeas (idleTaken_frame s).motion) (idleTaken_log s)
        (idleTaken_frame s).time
      rw [idleTaken_line]
    · rw [stallGraceEnds_of_other hp, arbiterPass_of_empty (by rw [idleTaken_arb]; exact hl),
        idleTaken_line]
  · rw [exec_excessTimerExpiry_running hrun, excessEnds_of_other hp]
    rfl
  · obtain ⟨hframe, hexcess, hspeed, hnoticed⟩ := excessEnds_keeps hp
    obtain ⟨hphase, hcause, hdrain⟩ :=
      passed_draining (c := .excess) (s := excessTaken s) hp hd
    rw [← excessEnds_of_printing hp] at hphase hcause hdrain
    exact ⟨_, exec_excessTimerExpiry_running hrun, hframe, hphase, hcause, hdrain, hexcess, hspeed,
      hnoticed⟩
  · obtain ⟨hframe, hexcess, -, hnoticed⟩ := excessEnds_keeps hp
    refine ⟨_, exec_excessTimerExpiry_running hrun, hframe, hexcess, hnoticed, fun hl => ?_⟩
    rw [excessEnds_of_printing hp, passed_of_empty (s := excessTaken s) .excess hl]
    exact (enterDraining_atOnce (s := excessTaken s) hp hd).congr rfl rfl rfl rfl rfl

end Sys2Proof.Machine
end

section
/-! PROOFS. The requests that change the phase: IMPRESSION_ON (R88), PURGE_START (R85), COOL_DOWN (R100),
BREAK_CLEAR (R121, R122) and SAFE_CLEAR (R104). -/
namespace Sys2Proof.Machine

/-! ### Every port, every detector -/

theorem allActive_iff (s : State) : s.allActive = true ↔ ∀ p, (s.port p).live = .active := by
  constructor
  · intro h p
    simp only [State.allActive, Bool.and_eq_true, beq_iff_eq] at h
    obtain ⟨⟨hline, hdryer⟩, hchill⟩ := h
    cases p
    · exact hline
    · exact hdryer
    · exact hchill
  · intro h
    have hline : s.ports.line.live = .active := h .line
    have hdryer : s.ports.dryer.live = .active := h .dryer
    have hchill : s.ports.chill.live = .active := h .chill
    simp [State.allActive, hline, hdryer, hchill]

theorem all_iff_forall {α : Type} (x : PerDetector α) (f : α → Bool) :
    x.all f = true ↔ ∀ d, f (x.get d) = true := by
  constructor
  · intro h d
    simp only [PerDetector.all, Bool.and_eq_true] at h
    obtain ⟨⟨⟨h0, h1⟩, h2⟩, h3⟩ := h
    cases d
    · exact h0
    · exact h1
    · exact h2
    · exact h3
  · intro h
    have h0 : f x.brk0 = true := h .brk0
    have h1 : f x.brk1 = true := h .brk1
    have h2 : f x.brk2 = true := h .brk2
    have h3 : f x.brk3 = true := h .brk3
    simp [PerDetector.all, h0, h1, h2, h3]

theorem any_eq_not_all {α : Type} (x : PerDetector α) (f : α → Bool) :
    x.any f = !x.all (fun a => !f a) := by
  simp [PerDetector.any, PerDetector.all]

theorem anyLatch_iff (s : State) : s.anyLatch = false ↔ ∀ d, (s.det d).latch = false := by
  rw [State.anyLatch, any_eq_not_all, Bool.not_eq_false', all_iff_forall]
  simp [State.det]

theorem signalsClear_iff (s : State) :
    s.signalsClear = true ↔ ∀ d, (s.det d).armed = true → (s.det d).signal = false := by
  rw [State.signalsClear, all_iff_forall]
  simp [State.det, Decidable.imp_iff_not_or]

/-! ### A phase change with its pass -/

section
variable {p : Phase} {c : Cause} {s : State}

theorem passed_frame (p : Phase) (c : Cause) (s : State) :
    KeepsPlant s (arbiterPass (phaseWrite p c s)) :=
  (phaseWrite_frame p c s).trans (arbiterPass_frame _)

/-- The pass after a change to a phase the ready test does not move keeps the phase and its lines. -/
theorem passed_line (h : s.line.phase ≠ p) (hp : p.tested = false) :
    (arbiterPass (phaseWrite p c s)).line.phase = p ∧
      (arbiterPass (phaseWrite p c s)).line.cause = c ∧
      (arbiterPass (phaseWrite p c s)).line.heatInhibit = !p.heated ∧
      (arbiterPass (phaseWrite p c s)).line.permit = (p == .ready || p == .printing) ∧
      (arbiterPass (phaseWrite p c s)).line.purgeTimer = (if p = .purge then some 100000 else none) ∧
      (arbiterPass (phaseWrite p c s)).line.purgeVolume = 0 := by
  have huntested : (phaseWrite p c s).line.phase.tested = false := by rw [phaseWrite_phase, hp]
  obtain ⟨hphase, hcause, hinhibit, hpermit, htimer, hvolume⟩ :=
    (Rechecked.arbiterPass (phaseWrite p c s)).line huntested
  rw [hphase, hcause, hinhibit, hpermit, htimer, hvolume, phaseWrite_line h]
  exact ⟨rfl, rfl, rfl, rfl, rfl, rfl⟩

theorem passed_log (h : s.line.phase ≠ p) (hp : p.tested = false) :
    (arbiterPass (phaseWrite p c s)).log =
      (logAppend (.phase s.line.phase p c s.motion.vMeas) s).log := by
  have huntested : (phaseWrite p c s).line.phase.tested = false := by rw [phaseWrite_phase, hp]
  exact ((Rechecked.arbiterPass _).log huntested).trans (phaseWrite_log h)

theorem passed_brk (h : s.line.phase ≠ p) :
    (arbiterPass (phaseWrite p c s)).brk = breakOnChange s.line.phase s.brk :=
  (Rechecked.arbiterPass _).brk.trans (phaseWrite_brk h)

end

/-! ### IMPRESSION_ON (R88) -/

/-- The counts of a job of `count` records, with its repeat byte. -/
def runOf (count rep : Nat) : Option RunCount :=
  if count = 0 then none else some { base := count, current := count, repeats := rep == 1 }

/-- The counts PRINTING starts from. -/
def jobSet (pr : Profile) (count rep : Nat) (s : State) : State :=
  s.setLine { s.line with fill := pr.ringLength, mark := 0, run := runOf count rep }

section
variable {pl : List Byte} {u : State} {pr : Profile}

theorem handleImpressionOn_elsewhere (h : u.prof.committed = none ∨ u.line.phase ≠ .ready) :
    handleImpressionOn .line pl u = .code u .refusedPhase := by
  unfold handleImpressionOn
  split
  · rfl
  · next hc =>
    rw [hc] at h
    exact if_neg (h.resolve_left (by simp))

variable (hc : u.prof.committed = some pr) (hr : u.line.phase = .ready)
include hc hr

theorem handleImpressionOn_badRepeat (h : 1 < fieldAt pl 3 1) :
    handleImpressionOn .line pl u = .code u .refusedRange := by
  simp only [handleImpressionOn, hc, if_pos hr]
  exact if_neg (by omega)

theorem handleImpressionOn_open (h : fieldAt pl 3 1 ≤ 1)
    (hopen : pr.printMin ≤ u.motion.vMeas ∧ u.motion.vMeas ≤ u.env.ceiling ∧
      ∀ q, (u.port q).live = .active) :
    handleImpressionOn .line pl u =
      .code (arbiterPass (phaseWrite .printing .impressionOn
        (jobSet pr (fieldAt pl 0 3) (fieldAt pl 3 1) u))) .ok := by
  rw [← allActive_iff] at hopen
  simp only [handleImpressionOn, hc, if_pos hr, if_pos h]
  exact if_pos hopen

theorem handleImpressionOn_closed (h : fieldAt pl 3 1 ≤ 1)
    (hclosed : ¬(pr.printMin ≤ u.motion.vMeas ∧ u.motion.vMeas ≤ u.env.ceiling ∧
      ∀ q, (u.port q).live = .active)) :
    handleImpressionOn .line pl u = .code u .refusedState := by
  rw [← allActive_iff] at hclosed
  simp only [handleImpressionOn, hc, if_pos hr, if_pos h]
  exact if_neg hclosed

end

/-- Settles O34: the tests in their order, then a change to PRINTING with the counts of the job. -/
theorem impressionOn : Obligations.ImpressionOn := by
  intro pl s hlen
  have hfits : lengthFits .impressionOn pl.length = true := by rw [hlen]; rfl
  refine ⟨fun h => exec_refuses (r := .impressionOn) (code := .refusedPhase) rfl hfits
      (handleImpressionOn_elsewhere h), fun pr hc hr => ⟨fun h => ?_, fun h hclosed => ?_,
      fun h hopen => ?_⟩⟩
  · exact exec_refuses (r := .impressionOn) (code := .refusedRange) rfl hfits
      (handleImpressionOn_badRepeat hc hr h)
  · exact exec_refuses (r := .impressionOn) (code := .refusedState) rfl hfits
      (handleImpressionOn_closed hc hr h hclosed)
  · let job := jobSet pr (fieldAt pl 0 3) (fieldAt pl 3 1) (frameTaken .line s)
    have hne : job.line.phase ≠ .printing := by
      have : job.line.phase = .ready := hr
      simp [this]
    have hnotPrinting : ¬(job.line.phase = .printing) := hne
    refine ⟨_, exec_answers (r := .impressionOn) rfl hfits
      (handleImpressionOn_open hc hr h hopen), ?_⟩
    obtain ⟨hphase, hcause, hinhibit, hpermit, -⟩ := passed_line (c := .impressionOn) hne rfl
    obtain ⟨hfill, hrun, -, hmark, -⟩ :=
      (Rechecked.arbiterPass (phaseWrite .printing .impressionOn job)).counts
    rw [phaseWrite_line hne] at hfill hrun hmark
    exact ⟨hphase, hcause, hfill.trans (if_neg hnotPrinting), hmark,
      hrun.trans (if_neg hnotPrinting), hinhibit, hpermit, passed_frame _ _ job⟩

/-! ### PURGE_START, COOL_DOWN (R85, R100) -/

section
variable {u : State}

theorem handlePurgeStart_elsewhere (h : u.line.phase ≠ .cold) :
    handlePurgeStart .dryer [] u = .code u .refusedPhase := if_neg h

theorem handlePurgeStart_taken (h : u.line.phase = .cold)
    (hmay : (∀ q, (u.port q).live = .active) ∧ (∀ d, (u.det d).latch = false) ∧
      u.prof.holder = none) :
    handlePurgeStart .dryer [] u = .code (arbiterPass (phaseWrite .purge .purgeStart u)) .ok := by
  rw [← allActive_iff, ← anyLatch_iff] at hmay
  exact (if_pos h).trans (if_pos hmay)

theorem handlePurgeStart_refused (h : u.line.phase = .cold)
    (hmay : ¬((∀ q, (u.port q).live = .active) ∧ (∀ d, (u.det d).latch = false) ∧
      u.prof.holder = none)) :
    handlePurgeStart .dryer [] u = .code u .refusedState := by
  rw [← allActive_iff, ← anyLatch_iff] at hmay
  exact (if_pos h).trans (if_neg hmay)

theorem handleCoolDown_elsewhere (h : ¬(u.line.phase = .heating ∨ u.line.phase = .ready)) :
    handleCoolDown .dryer [] u = .code u .refusedPhase := if_neg h

theorem handleCoolDown_hot (h : u.line.phase = .heating ∨ u.line.phase = .ready) :
    handleCoolDown .dryer [] u = .code (arbiterPass (phaseWrite .cold .coolDown u)) .ok := if_pos h

end

/-- In a phase that is not heated every heat cap of a current envelope is 0 (R73). -/
theorem cold_heatCaps {s : State} (he : EnvelopeCurrent s) (h : s.line.phase.heated = false) :
    ∀ c ∈ s.env.heatCaps, c = 0 := by
  have henv : s.env = envelopeOf s := he
  rw [henv]
  exact envelopeOf_cold h

/-- Settles O38: PURGE or COLD taken whole, then the pass. -/
theorem purgeStartAndCoolDown : Obligations.PurgeStartAndCoolDown := by
  intro s
  refine ⟨fun h => ?_, fun h hmay => ?_, fun h hmay => ?_, fun hh hr => ?_, fun h => ?_⟩
  · exact exec_refuses (r := .purgeStart) (code := .refusedPhase) rfl rfl
      (handlePurgeStart_elsewhere h)
  · exact exec_refuses (r := .purgeStart) (code := .refusedState) rfl rfl
      (handlePurgeStart_refused h hmay)
  · have hne : (frameTaken .dryer s).line.phase ≠ .purge := by simp [h]
    obtain ⟨hphase, hcause, hinhibit, hpermit, htimer, hvolume⟩ :=
      passed_line (c := .purgeStart) hne rfl
    exact ⟨_, exec_answers (r := .purgeStart) rfl rfl (handlePurgeStart_taken h hmay),
      hphase, hcause, htimer, hvolume, hinhibit, hpermit, passed_frame _ _ _⟩
  · exact exec_refuses (r := .coolDown) (code := .refusedPhase) rfl rfl
      (handleCoolDown_elsewhere fun h => h.elim hh hr)
  · have hne : (frameTaken .dryer s).line.phase ≠ .cold := by
      rcases h with h | h <;> simp [h]
    obtain ⟨hphase, hcause, hinhibit, hpermit, -⟩ := passed_line (c := .coolDown) hne rfl
    refine ⟨_, exec_answers (r := .coolDown) rfl rfl (handleCoolDown_hot h), hphase, hcause, hinhibit,
      hpermit, ?_, fun hl => ?_, passed_frame _ _ _⟩
    · exact cold_heatCaps ((arbiterPass_current _).env (phaseWrite_envelopeCurrent hne))
        (by rw [hphase]; rfl)
    · have harb := phaseWrite_arb_of_empty (p := .cold) .coolDown hl (by simp)
      obtain ⟨hspeed, hexhaust, hpoints⟩ := phaseWrite_records .cold .coolDown (frameTaken .dryer s)
      rw [arbiterPass_of_empty ((congrArg Arbiter.list harb).trans hl)]
      exact ⟨hpoints, hexhaust, hspeed⟩

/-! ### BREAK_CLEAR, SAFE_CLEAR (R104, R121, R122) -/

/-- The break is cleared: no latch and no p_b. -/
def breakCleared (s : State) : State :=
  (clearLatches s).setBrk { (clearLatches s).brk with pb := none }

theorem ringRestore_keeps (pr : Profile) (s : State) :
    (ringRestore pr s).ring = { s.ring with records := s.ring.records.map (restoreRecord pr) } ∧
      (ringRestore pr s).line = s.line ∧ (ringRestore pr s).brk = s.brk ∧
      (ringRestore pr s).motion = s.motion ∧ (ringRestore pr s).prof = s.prof ∧
      (ringRestore pr s).load = s.load ∧ (ringRestore pr s).log = s.log ∧
      (ringRestore pr s).time = s.time := by
  simp [ringRestore]

/-- The VOID records restored and PURGE entered, with its pass. -/
def purgeEntered (c : Cause) (pr : Profile) (s : State) : State :=
  arbiterPass (phaseWrite .purge c (ringRestore pr s))

theorem purgeEntered_line {c : Cause} {pr : Profile} {s : State} (h : s.line.phase ≠ .purge) :
    (purgeEntered c pr s).line.phase = .purge ∧ (purgeEntered c pr s).line.cause = c ∧
      (purgeEntered c pr s).line.purgeTimer = some 100000 ∧
      (purgeEntered c pr s).line.purgeVolume = 0 := by
  have hne : (ringRestore pr s).line.phase ≠ .purge := by
    rw [(ringRestore_keeps pr s).2.1]
    exact h
  obtain ⟨hphase, hcause, -, -, htimer, hvolume⟩ := passed_line (c := c) hne rfl
  exact ⟨hphase, hcause, htimer, hvolume⟩

theorem purgeEntered_keeps (c : Cause) (pr : Profile) (s : State) :
    (purgeEntered c pr s).ring = { s.ring with records := s.ring.records.map (restoreRecord pr) } ∧
      (purgeEntered c pr s).motion = s.motion ∧ (purgeEntered c pr s).prof = s.prof ∧
      (purgeEntered c pr s).load.flow = s.load.flow := by
  have hframe := passed_frame .purge c (ringRestore pr s)
  obtain ⟨hring, -, -, hmotion, hprof, hload, -⟩ := ringRestore_keeps pr s
  exact ⟨hframe.ring.trans hring, hframe.motion.trans hmotion, hframe.prof.trans hprof,
    hframe.flow.trans (congrArg Load.flow hload)⟩

theorem purgeEntered_brk {c : Cause} {pr : Profile} {s : State} (h : s.line.phase ≠ .purge) :
    (purgeEntered c pr s).brk = breakOnChange s.line.phase s.brk := by
  obtain ⟨-, hline, hbrk, -⟩ := ringRestore_keeps pr s
  have hne : (ringRestore pr s).line.phase ≠ .purge := by rw [hline]; exact h
  exact (passed_brk hne).trans (by rw [hline, hbrk])

theorem purgeEntered_log {c : Cause} {pr : Profile} {s : State} (h : s.line.phase ≠ .purge) :
    (purgeEntered c pr s).log =
      (logAppend (.phase s.line.phase .purge c s.motion.vMeas) s).log := by
  obtain ⟨-, hline, -, hmotion, -, -, hlog, htime⟩ := ringRestore_keeps pr s
  have hne : (ringRestore pr s).line.phase ≠ .purge := by rw [hline]; exact h
  refine (passed_log hne rfl).trans ?_
  rw [hline, hmotion]
  exact logAppend_log_congr _ hlog htime

section
variable {u : State}

theorem handleBreakClear_latches (h : u.line.phase ≠ .webBreak)
    (hclear : ∀ d, (u.det d).armed = true → (u.det d).signal = false) :
    handleBreakClear .line [] u = .code (clearLatches u) .ok :=
  (if_neg h).trans (if_pos ((signalsClear_iff u).mpr hclear))

theorem handleBreakClear_blocked (h : u.line.phase ≠ .webBreak)
    (hshut : ¬∀ d, (u.det d).armed = true → (u.det d).signal = false) :
    handleBreakClear .line [] u = .code u .refusedState :=
  (if_neg h).trans (if_neg fun hclear => hshut ((signalsClear_iff u).mp hclear))

theorem handleBreakClear_break (h : u.line.phase = .webBreak) {pr : Profile}
    (hc : u.prof.committed = some pr)
    (hclear : ∀ d, (u.det d).armed = true → (u.det d).signal = false)
    (hstill : u.motion.state = .still) :
    handleBreakClear .line [] u = .code (purgeEntered .breakClear pr (breakCleared u)) .ok := by
  have hc' : (clearLatches u).prof.committed = some pr := hc
  refine (if_pos h).trans ((if_pos ⟨(signalsClear_iff u).mpr hclear, hstill⟩).trans ?_)
  simp only [setBrk_prof, hc']
  rfl

theorem handleBreakClear_shut (h : u.line.phase = .webBreak)
    (hshut : ¬((∀ d, (u.det d).armed = true → (u.det d).signal = false) ∧
      u.motion.state = .still)) :
    handleBreakClear .line [] u = .code u .refusedState := by
  rw [← signalsClear_iff] at hshut
  exact (if_pos h).trans (if_neg hshut)

theorem handleSafeClear_elsewhere (h : u.prof.committed = none ∨ u.line.phase ≠ .safe) :
    handleSafeClear .line [] u = .code u .refusedPhase := by
  unfold handleSafeClear
  split
  · rfl
  · next hc =>
    rw [hc] at h
    exact if_neg (h.resolve_left (by simp))

/-- The conditions of SAFE_CLEAR (R104). -/
def MayClearSafe (pr : Profile) (u : State) : Prop :=
  u.line.estopActive = false ∧ u.motion.state = .still ∧ (∀ q, (u.port q).live = .active) ∧
    u.load.peak < pr.loadWarn ∧ ∀ d, (u.det d).latch = false

theorem handleSafeClear_taken {pr : Profile} (hc : u.prof.committed = some pr)
    (h : u.line.phase = .safe) (hmay : MayClearSafe pr u) :
    handleSafeClear .line [] u = .code (purgeEntered .safeClear pr u) .ok := by
  rw [MayClearSafe, ← allActive_iff, ← anyLatch_iff] at hmay
  simp only [handleSafeClear, hc, if_pos h]
  exact if_pos hmay

theorem handleSafeClear_refused {pr : Profile} (hc : u.prof.committed = some pr)
    (h : u.line.phase = .safe) (hmay : ¬MayClearSafe pr u) :
    handleSafeClear .line [] u = .code u .refusedState := by
  rw [MayClearSafe, ← allActive_iff, ← anyLatch_iff] at hmay
  simp only [handleSafeClear, hc, if_pos h]
  exact if_neg hmay

end

/-- Settles O39: each clear is its tests, and then PURGE entered with the VOID records restored. -/
theorem clearsLeadToPurge : Obligations.ClearsLeadToPurge := by
  intro s
  refine ⟨fun h hshut => ?_, fun h hclear => ?_, fun h hshut => ?_, fun pr hc h hclear hstill => ?_,
    fun h => ?_, fun pr hc h => ⟨fun hshut => ?_, fun hmay => ?_⟩⟩
  · exact exec_refuses (r := .breakClear) (code := .refusedState) rfl rfl
      (handleBreakClear_blocked h hshut)
  · exact exec_answers (r := .breakClear) rfl rfl
      (handleBreakClear_latches h hclear)
  · exact exec_refuses (r := .breakClear) (code := .refusedState) rfl rfl
      (handleBreakClear_shut h hshut)
  · have hbreak : (breakCleared (frameTaken .line s)).line.phase = .webBreak := h
    have hne : (breakCleared (frameTaken .line s)).line.phase ≠ .purge := by simp [hbreak]
    obtain ⟨hphase, hcause, htimer, hvolume⟩ :=
      purgeEntered_line (c := .breakClear) (pr := pr) hne
    obtain ⟨hring, hmotion, hprof, hflow⟩ :=
      purgeEntered_keeps .breakClear pr (breakCleared (frameTaken .line s))
    have hbrk := purgeEntered_brk (c := .breakClear) (pr := pr) hne
    have hlog := purgeEntered_log (c := .breakClear) (pr := pr) hne
    rw [breakOnChange, if_pos hbreak] at hbrk
    refine ⟨_, exec_answers (r := .breakClear) rfl rfl
      (handleBreakClear_break h hc hclear hstill), hphase, hcause, htimer,
      hvolume, congrArg BreakUnit.pb hbrk, fun d => ?_, hring, hmotion, hprof, hflow, ?_⟩
    · rw [State.det, congrArg BreakUnit.dets hbrk]
      exact PerDetector.get_of _ d
    · rw [hlog, hbreak]
      exact logAppend_log_congr _ rfl rfl
  · exact exec_refuses (r := .safeClear) (code := .refusedPhase) rfl rfl
      (handleSafeClear_elsewhere h)
  · exact exec_refuses (r := .safeClear) (code := .refusedState) rfl rfl
      (handleSafeClear_refused hc h hshut)
  · have hne : (frameTaken .line s).line.phase ≠ .purge := by simp [h]
    obtain ⟨hphase, hcause, htimer, hvolume⟩ := purgeEntered_line (c := .safeClear) (pr := pr) hne
    obtain ⟨hring, hmotion, hprof, hflow⟩ := purgeEntered_keeps .safeClear pr (frameTaken .line s)
    have hbrk := purgeEntered_brk (c := .safeClear) (pr := pr) hne
    rw [breakOnChange, if_neg (by simp [h])] at hbrk
    exact ⟨_, exec_answers (r := .safeClear) rfl rfl (handleSafeClear_taken hc h hmay),
      hphase, hcause, htimer, hvolume, hbrk, hring, hmotion, hprof, hflow⟩

end Sys2Proof.Machine
end

section
/-! PROOFS. Arrivals at the break detectors (R112 to R119). -/
namespace Sys2Proof.Machine

/-! ### The parts of a break response -/

/-- The break unit and the log aside, a recorded arrival changes notices alone. -/
theorem recordArrival_keeps (d : Detector) (n : Nat) (up : Bool) (s : State) :
    (recordArrival d n up s).line = s.line ∧ (recordArrival d n up s).ring = s.ring ∧
      (recordArrival d n up s).arb = s.arb ∧ (recordArrival d n up s).load = s.load ∧
      (recordArrival d n up s).env = s.env ∧ (recordArrival d n up s).motion = s.motion ∧
      (recordArrival d n up s).prof = s.prof ∧ (recordArrival d n up s).brk.pb = s.brk.pb := by
  simp [recordArrival, State.putDet]

theorem recordArrival_log (d : Detector) (n : Nat) (up : Bool) (s : State) :
    (recordArrival d n up s).log = (logAppend (.webBreak d (s.det d).place n up) s).log := by
  simp [recordArrival, State.putDet]

theorem recordArrival_det (d : Detector) (n : Nat) (up : Bool) (s : State) (x : Detector) :
    (recordArrival d n up s).det x = if x = d then { s.det d with latch := true } else s.det x := by
  have hdets : ∀ y, ((raiseAll .webBreak (logAppend (.webBreak d (s.det d).place n up) s)).det y) =
      s.det y := fun y => by simp [State.det]
  rw [recordArrival, State.putDet, State.det, setBrk_brk, hdets]
  split
  · next h => rw [h, PerDetector.get_set_same]
  · next h => rw [PerDetector.get_set_other _ _ h]; exact hdets x

theorem recordArrival_noticed (d : Detector) (n : Nat) (up : Bool) (s : State) (q : Port) :
    Notice.webBreak.inSet ((recordArrival d n up s).port q).pendingSet = true := by
  change Notice.webBreak.inSet ((raiseAll .webBreak _).port q).pendingSet = true
  simp [raiseAll]

theorem recordArrival_keepsPending (d : Detector) (n : Nat) (up : Bool) (s : State) :
    KeepsPending s (recordArrival d n up s) :=
  (KeepsPending.logAppend _ s).trans
    ((KeepsPending.raiseAll .webBreak _).trans (.of_ports rfl))

/-- Arming the freeze writes the log alone. -/
theorem armFreeze_eq (pr : Profile) (s : State) :
    armFreeze pr s = s.setLog (armFreeze pr s).log := by
  unfold armFreeze
  split <;> rfl

theorem armFreeze_log_congr (pr : Profile) {s t : State} (h : t.log = s.log) :
    (armFreeze pr t).log = (armFreeze pr s).log := by
  unfold armFreeze
  rw [h]
  split
  · rfl
  · exact h
  · exact h

/-- The void and the strand operation at `p`. -/
def ringCut (pr : Profile) (p : Nat) (s : State) : State := ringStrand pr p (ringVoid p s)

theorem ringCut_keeps (pr : Profile) (p : Nat) (s : State) :
    (ringCut pr p s).ring =
        { s.ring with records := strandTo pr p (voidFrom p s.ring.records) } ∧
      (ringCut pr p s).line = s.line ∧ (ringCut pr p s).brk = s.brk ∧
      (ringCut pr p s).motion = s.motion ∧ (ringCut pr p s).prof = s.prof ∧
      (ringCut pr p s).load = s.load ∧ (ringCut pr p s).log = s.log ∧
      (ringCut pr p s).time = s.time ∧ (ringCut pr p s).arb = s.arb := by
  simp [ringCut, ringStrand, ringVoid]

/-- The ceiling is 0 after the two operations in BREAK (R65). -/
theorem ringCut_ceiling (pr : Profile) (p : Nat) {s : State} (h : s.line.phase = .webBreak) :
    (ringCut pr p s).env.ceiling = 0 := by
  have hphase : (ringVoid p s).line.phase = .webBreak := by simpa [ringVoid] using h
  exact (stopped_envelope (s := ringVoid p s) (recompute_envelopeCurrent _) (.inr hphase)).1

theorem ringCut_keepsPending (pr : Profile) (p : Nat) (s : State) :
    KeepsPending s (ringCut pr p s) :=
  .after_ports (.recompute (s.setRing { s.ring with records := voidFrom p s.ring.records })) rfl

/-- Outcomes of an abort go by the keys, values and arrivals of what it ended. -/
theorem AbortedOutcomes.of_map {u v t : State} {f : PendingEntry → PendingEntry}
    (h : AbortedOutcomes u t) (hl : u.arb.list = v.arb.list.map f)
    (hf : ∀ e, (f e).key = e.key ∧ (f e).arrival = e.arrival ∧ (f e).value = e.value)
    (hflight : u.arb.inFlight = v.arb.inFlight) (hout : u.arb.outcomes = v.arb.outcomes) :
    AbortedOutcomes v t := by
  intro p
  obtain ⟨hlast, hnone⟩ := h p
  rw [hl, hflight, hout] at hnone
  refine ⟨fun i e hi he hafter => ?_, fun hno => hnone fun x hx => ?_⟩
  · obtain ⟨hkey, harrival, hvalue⟩ := hf e
    have hmax : ∀ (j : Nat) (x : PendingEntry), u.arb.list[j]? = some x → keyOwner x.key = p →
        j ≤ i := by
      intro j x hj hx
      rw [hl, List.getElem?_map] at hj
      obtain ⟨y, hy, rfl⟩ := Option.map_eq_some_iff.mp hj
      exact hafter j y hy ((congrArg keyOwner (hf y).1).symm.trans hx)
    have hmapped : u.arb.list[i]? = some (f e) := by rw [hl, List.getElem?_map, hi]; rfl
    rw [hlast i (f e) hmapped ((congrArg keyOwner hkey).trans he) hmax, hkey, harrival, hvalue]
  · obtain ⟨y, hy, rfl⟩ := List.mem_map.mp hx
    rw [(hf y).1]
    exact hno y hy

theorem AbortNoticed.of_map {u v t : State} {f : PendingEntry → PendingEntry}
    (h : AbortNoticed u t) (hl : u.arb.list = v.arb.list.map f) (hf : ∀ e, (f e).key = e.key)
    (hflight : u.arb.inFlight = v.arb.inFlight) : AbortNoticed v t := by
  intro p hp
  refine h p ?_
  rw [hflight]
  refine hp.imp (fun ⟨e, he, hk⟩ => ⟨f e, ?_, (congrArg keyOwner (hf e)).trans hk⟩) id
  rw [hl]
  exact List.mem_map_of_mem he

theorem releaseEntry_keeps (limit : Timer) (e : PendingEntry) :
    (releaseEntry limit e).key = e.key ∧ (releaseEntry limit e).arrival = e.arrival ∧
      (releaseEntry limit e).value = e.value := by
  unfold releaseEntry
  split <;> exact ⟨rfl, rfl, rfl⟩

/-- A change to BREAK keeps of every standing change what an abort stores of it. -/
theorem webBreak_standing {c : Cause} {s : State} (h : s.line.phase ≠ .webBreak) :
    ∃ f : PendingEntry → PendingEntry,
      (phaseWrite .webBreak c s).arb.list = s.arb.list.map f ∧
      (∀ e, (f e).key = e.key ∧ (f e).arrival = e.arrival ∧ (f e).value = e.value) ∧
      (phaseWrite .webBreak c s).arb.inFlight = s.arb.inFlight ∧
      (phaseWrite .webBreak c s).arb.outcomes = s.arb.outcomes := by
  by_cases hold : s.line.phase = .draining
  · rw [phaseWrite_arb_release h hold (by simp)]
    exact ⟨_, rfl, releaseEntry_keeps _, rfl, rfl⟩
  · rw [phaseWrite_arb_other h hold (by simp) (by simp)]
    exact ⟨id, (List.map_id _).symm, fun _ => ⟨rfl, rfl, rfl⟩, rfl, rfl⟩

/-! ### The break response (R114) -/

/-- BREAK entered at `p`. -/
def breakEntered (p : Nat) (s : State) : State :=
  phaseWrite .webBreak .webBreak (s.setBrk { s.brk with pb := some p })

/-- The response up to the record of the arrival. -/
def breakTaken (pr : Profile) (p : Nat) (s : State) : State :=
  armFreeze pr (abortChanges (ringCut pr p (breakEntered p s)))

section
variable {pr : Profile} {p : Nat} {s : State}

theorem breakTaken_keeps :
    (breakTaken pr p s).line = (breakEntered p s).line ∧
      (breakTaken pr p s).ring =
        { (breakEntered p s).ring with
          records := strandTo pr p (voidFrom p (breakEntered p s).ring.records) } ∧
      (breakTaken pr p s).brk = (breakEntered p s).brk ∧
      (breakTaken pr p s).motion = (breakEntered p s).motion ∧
      (breakTaken pr p s).prof = (breakEntered p s).prof ∧
      (breakTaken pr p s).load = (breakEntered p s).load ∧
      (breakTaken pr p s).time = (breakEntered p s).time ∧
      (breakTaken pr p s).env = (ringCut pr p (breakEntered p s)).env ∧
      (breakTaken pr p s).arb = (abortChanges (ringCut pr p (breakEntered p s))).arb := by
  obtain ⟨hring, hline, hbrk, hmotion, hprof, hload, -, htime, -⟩ :=
    ringCut_keeps pr p (breakEntered p s)
  rw [breakTaken, armFreeze_eq, ← hring]
  simp [hline, hbrk, hmotion, hprof, hload, htime]

theorem breakTaken_keepsPending :
    KeepsPending (abortChanges (ringCut pr p (breakEntered p s))) (breakTaken pr p s) := by
  rw [breakTaken, armFreeze_eq]
  exact .of_ports rfl

theorem breakTaken_log (h : s.line.phase ≠ .webBreak) :
    (breakTaken pr p s).log =
      (armFreeze pr
        (logAppend (.phase s.line.phase .webBreak .webBreak s.motion.vMeas) s)).log := by
  have habort : (abortChanges (ringCut pr p (breakEntered p s))).log = (breakEntered p s).log := by
    have hframe := abortChanges_frame (ringCut pr p (breakEntered p s))
    obtain ⟨-, -, -, -, -, -, -, -, hlog, -⟩ := hframe
    exact hlog.trans (ringCut_keeps pr p _).2.2.2.2.2.2.1
  refine armFreeze_log_congr pr (habort.trans ?_)
  exact (phaseWrite_log (s := s.setBrk { s.brk with pb := some p }) h).trans
    (logAppend_log_congr _ rfl rfl)

theorem breakTaken_aborts (h : s.line.phase ≠ .webBreak) :
    (breakTaken pr p s).arb.list = [] ∧ (breakTaken pr p s).arb.inFlight = none ∧
      AbortedOutcomes s (breakTaken pr p s) ∧ AbortNoticed s (breakTaken pr p s) := by
  obtain ⟨-, -, -, -, -, -, -, -, harb⟩ := breakTaken_keeps (pr := pr) (p := p) (s := s)
  obtain ⟨f, hlist, hf, hflight, hout⟩ :=
    webBreak_standing (c := .webBreak) (s := s.setBrk { s.brk with pb := some p }) h
  have hcut : (ringCut pr p (breakEntered p s)).arb = (breakEntered p s).arb :=
    (ringCut_keeps pr p _).2.2.2.2.2.2.2.2
  obtain ⟨hempty, hnone⟩ := abortChanges_arb (ringCut pr p (breakEntered p s))
  refine ⟨(congrArg Arbiter.list harb).trans hempty, (congrArg Arbiter.inFlight harb).trans hnone,
    ?_, ?_⟩
  · exact ((abortChanges_outcomes _).congr hcut.symm (congrArg Arbiter.outcomes harb)).of_map
      hlist hf hflight hout
  · exact ((abortChanges_noticed _).congr hcut.symm breakTaken_keepsPending).of_map hlist
      (fun e => (hf e).1) hflight

end

theorem breakResponse_eq (pr : Profile) (d : Detector) (s : State) :
    breakResponse pr d s =
      recordArrival d (voidCount (s.det d).place s.ring.records) false
        (breakTaken pr (s.det d).place s) := by
  have hring := (phaseWrite_frame .webBreak .webBreak
    (s.setBrk { s.brk with pb := some (s.det d).place })).ring
  rw [breakResponse, hring]
  rfl

/-- What BREAK entered at `p` holds (R65, R81 to R83, R98, R114, R116). -/
theorem breakEntered_keeps (p : Nat) {s : State} (h : s.line.phase ≠ .webBreak) :
    (breakEntered p s).line = lineOnChange s .webBreak .webBreak ∧
      (breakEntered p s).brk = { s.brk with pb := some p } ∧
      (breakEntered p s).load.floorDuty = 256 ∧ (breakEntered p s).ring = s.ring ∧
      (breakEntered p s).motion = s.motion ∧ (breakEntered p s).prof = s.prof := by
  have hne : (s.setBrk { s.brk with pb := some p }).line.phase ≠ .webBreak := h
  have hphase : (breakEntered p s).line.phase = .webBreak := phaseWrite_phase _ _ _
  have hframe := phaseWrite_frame .webBreak .webBreak (s.setBrk { s.brk with pb := some p })
  refine ⟨phaseWrite_line hne, (phaseWrite_brk hne).trans (if_neg h), ?_, hframe.ring,
    hframe.motion, hframe.prof⟩
  exact (phaseWrite_dutyCurrent hne).trans (floorDuty_forced (.inr (.inl hphase)))

/-! ### Arrivals by phase -/

theorem upstreamArrival_eq (pr : Profile) (d : Detector) (s : State) :
    upstreamArrival pr d s =
      recordArrival d (voidCount (s.det d).place s.ring.records) true
        (ringCut pr (s.det d).place (s.setBrk { s.brk with pb := some (s.det d).place })) := rfl

section
variable {pr : Profile} {d : Detector} {s : State} (hc : s.prof.committed = some pr)
include hc

theorem arrival_of_heated (h : s.line.phase.heated) : arrival d s = breakResponse pr d s := by
  rw [arrival, hc]
  exact if_pos h

theorem arrival_of_upstream (h : s.line.phase = .webBreak) {b : Nat} (hb : s.brk.pb = some b)
    (hp : (s.det d).place < b) : arrival d s = upstreamArrival pr d s := by
  have hcold : ¬(s.line.phase.heated = true) := by rw [h]; decide
  have hup : s.upstreamOf d = true := by rw [State.upstreamOf, hb]; exact decide_eq_true hp
  rw [arrival, hc]
  exact (if_neg hcold).trans (if_pos ⟨h, hup⟩)

theorem arrival_of_downstream (h : s.line.phase = .webBreak) {b : Nat} (hb : s.brk.pb = some b)
    (hp : b ≤ (s.det d).place) : arrival d s = recordArrival d 0 false s := by
  have hcold : ¬(s.line.phase.heated = true) := by rw [h]; decide
  have hdown : s.upstreamOf d = false := by
    rw [State.upstreamOf, hb]
    exact decide_eq_false (by omega)
  rw [arrival, hc]
  exact (if_neg hcold).trans (if_neg (by simp [hdown]))

theorem arrival_of_other (h : s.line.phase.heated = false) (hb : s.line.phase ≠ .webBreak) :
    arrival d s = recordArrival d 0 false s := by
  rw [arrival, hc]
  exact (if_neg (by simp [h])).trans (if_neg fun hup => hb hup.1)

/-- Every arrival sets the latch of its detector and notices WEB_BREAK at every port (R113). -/
theorem arrival_recorded :
    (∀ x, (arrival d s).det x = if x = d then { s.det d with latch := true } else s.det x) ∧
      ∀ q, Notice.webBreak.inSet ((arrival d s).port q).pendingSet = true := by
  have hrecorded : ∃ n up v, arrival d s = recordArrival d n up v ∧ v.brk.dets = s.brk.dets := by
    by_cases hh : s.line.phase.heated
    · rw [arrival_of_heated hc hh, breakResponse_eq]
      have hne : s.line.phase ≠ .webBreak := fun h => by rw [h] at hh; exact absurd hh (by decide)
      refine ⟨_, _, _, rfl, ?_⟩
      rw [breakTaken_keeps.2.2.1, (breakEntered_keeps _ hne).2.1]
    · by_cases hup : s.line.phase = .webBreak ∧ s.upstreamOf d
      · obtain ⟨-, -, hbrk, -⟩ := ringCut_keeps pr (s.det d).place
          (s.setBrk { s.brk with pb := some (s.det d).place })
        have heq : arrival d s = upstreamArrival pr d s := by
          rw [arrival, hc]
          exact (if_neg hh).trans (if_pos hup)
        refine ⟨_, _, _, heq.trans (upstreamArrival_eq pr d s), ?_⟩
        rw [hbrk]
        rfl
      · refine ⟨0, false, s, ?_, rfl⟩
        rw [arrival, hc]
        exact (if_neg hh).trans (if_neg hup)
  obtain ⟨n, up, v, heq, hdets⟩ := hrecorded
  have hdet : ∀ x, v.det x = s.det x := fun x => congrArg (PerDetector.get · x) hdets
  rw [heq]
  refine ⟨fun x => ?_, recordArrival_noticed d n up v⟩
  rw [recordArrival_det, hdet, hdet]

end

/-! ### The statement -/

theorem putDet_det (d : Detector) (e : DetectorEntry) (s : State) (x : Detector) :
    (s.putDet d e).det x = if x = d then e else s.det x := by
  rw [State.putDet, State.det, setBrk_brk]
  split
  · next h => rw [h, PerDetector.get_set_same]
  · next h => exact PerDetector.get_set_other _ _ h

/-- A detector armed before and after goes from inactive to active (R112). -/
def Arrives (d : Detector) (e : DetectorEntry) (s : State) : Prop :=
  (s.det d).armed = true ∧ e.armed = true ∧ (s.det d).signal = false ∧ e.signal = true

theorem changeDetector_of_arrival {d : Detector} {e : DetectorEntry} {s : State}
    (h : Arrives d e s) : changeDetector d e s = arrival d (s.putDet d e) := by
  obtain ⟨hbefore, harmed, hinactive, hactive⟩ := h
  simp [changeDetector, hbefore, harmed, hinactive, hactive]

theorem changeDetector_of_none {d : Detector} {e : DetectorEntry} {s : State}
    (h : ¬Arrives d e s) : changeDetector d e s = s.putDet d e := by
  refine if_neg fun hall => h ?_
  simpa [Arrives, and_assoc] using hall

/-- The entry of the detector that changes is the one it changes to. -/
theorem putDet_det_same (d : Detector) (e : DetectorEntry) (s : State) :
    (s.putDet d e).det d = e := by
  rw [putDet_det, if_pos rfl]

/-- Settles O40: the response, the upstream arrival and the mere record, by the phase found. -/
theorem arrivalsByPhase : Obligations.ArrivalsByPhase := by
  intro pr d e s hc
  have hc' : (s.putDet d e).prof.committed = some pr := hc
  have he := putDet_det_same d e s
  refine ⟨changeDetector_of_none, fun ha hh => ?_, fun ha hw => ⟨fun b hb hp => ?_, fun b hb hp => ?_⟩,
    fun ha hh hw => ?_, fun ha => ?_⟩ <;> rw [changeDetector_of_arrival ha]
  · have hne : (s.putDet d e).line.phase ≠ .webBreak := by
      intro h
      have h' : s.line.phase = .webBreak := h
      rw [h'] at hh
      exact absurd hh (by decide)
    obtain ⟨hline, hring, hbrk, hmotion, hprof, hload, htime, henv, -⟩ :=
      breakTaken_keeps (pr := pr) (p := e.place) (s := s.putDet d e)
    obtain ⟨hentered, hpb, hduty, heRing, heMotion, heProf⟩ :=
      breakEntered_keeps e.place (s := s.putDet d e) hne
    obtain ⟨hlist, hflight, hout, hnoticed⟩ :=
      breakTaken_aborts (pr := pr) (p := e.place) (s := s.putDet d e) hne
    have hdet : (breakTaken pr e.place (s.putDet d e)).det d = e := by
      rw [State.det, hbrk, hpb]
      exact he
    have hceiling := ringCut_ceiling pr e.place (s := breakEntered e.place (s.putDet d e))
      (phaseWrite_phase _ _ _)
    rw [arrival_of_heated hc' hh, breakResponse_eq, he]
    obtain ⟨kline, kring, karb, kload, kenv, kmotion, kprof, kpb⟩ :=
      recordArrival_keeps d (voidCount e.place (s.putDet d e).ring.records) false
        (breakTaken pr e.place (s.putDet d e))
    rw [kline, kring, karb, kload, kenv, kmotion, kprof, kpb, hline, hring, hbrk, hload, henv,
      hmotion, hprof, hentered, hpb, heRing, heMotion, heProf, recordArrival_log, hdet]
    refine ⟨rfl, rfl, rfl, rfl, rfl, rfl, hlist, hflight,
      hout.congr rfl (congrArg Arbiter.outcomes karb),
      hnoticed.congr rfl (recordArrival_keepsPending _ _ _ _), hduty, hceiling, rfl, rfl, rfl, rfl,
      rfl, ?_⟩
    refine logAppend_log_congr _ ?_ ?_
    · exact (breakTaken_log hne).trans
        (armFreeze_log_congr pr (logAppend_log_congr _ rfl rfl))
    · rw [htime, armFreeze_eq]
      exact (phaseWrite_frame _ _ _).time.trans (logAppend_frame _ s).1.symm
  · have hplace : ((s.putDet d e).det d).place < b := by rw [he]; exact hp
    rw [arrival_of_upstream hc' hw hb hplace, upstreamArrival_eq, he]
    obtain ⟨hring, hline, hbrk, -, -, -, hlog, htime, harb⟩ :=
      ringCut_keeps pr e.place ((s.putDet d e).setBrk { (s.putDet d e).brk with pb := some e.place })
    obtain ⟨kline, kring, karb, -, -, -, -, kpb⟩ :=
      recordArrival_keeps d (voidCount e.place (s.putDet d e).ring.records) true
        (ringCut pr e.place ((s.putDet d e).setBrk { (s.putDet d e).brk with pb := some e.place }))
    have hdet : (ringCut pr e.place
        ((s.putDet d e).setBrk { (s.putDet d e).brk with pb := some e.place })).det d = e := by
      rw [State.det, hbrk]
      exact he
    refine ⟨kpb.trans (congrArg BreakUnit.pb hbrk), kring.trans hring, kline.trans hline,
      karb.trans harb, ?_⟩
    rw [recordArrival_log, hdet]
    exact logAppend_log_congr _ hlog htime
  · have hplace : b ≤ ((s.putDet d e).det d).place := by rw [he]; exact hp
    rw [arrival_of_downstream hc' hw hb hplace]
    obtain ⟨kline, kring, karb, -, -, -, -, kpb⟩ := recordArrival_keeps d 0 false (s.putDet d e)
    refine ⟨kpb.trans hb, kring, kline, karb, ?_⟩
    rw [recordArrival_log, he]
    exact logAppend_log_congr _ rfl rfl
  · rw [arrival_of_other hc' hh hw]
    obtain ⟨kline, kring, karb, kload, kenv, kmotion, kprof, kpb⟩ :=
      recordArrival_keeps d 0 false (s.putDet d e)
    refine ⟨kpb, kring, kline, karb, kload, kenv, kmotion, kprof, ?_⟩
    rw [recordArrival_log, he]
    exact logAppend_log_congr _ rfl rfl
  · obtain ⟨hdets, hnoticed⟩ := arrival_recorded (d := d) hc'
    refine ⟨fun x => ?_, hnoticed⟩
    rw [hdets, he, putDet_det]
    split <;> rfl

end Sys2Proof.Machine
end

section
/-! PROOFS. Pulses and stillness (R32, R33, R37, R38), the dwell step and the zones' runs (R3, R20, R39). -/
namespace Sys2Proof.Machine

/-! ### The STALL condition evaluated (R37) -/

/-- The STALL condition, the envelope and the pass, after the web's state changed. -/
def stallSettled (s : State) : State := arbiterPass (recompute (evalStall s))

section
variable (s : State)

theorem evalStall_frame : NoticesOnly s (evalStall s) := by
  simp [NoticesOnly, evalStall]

theorem stallSettled_frame : KeepsPlant s (stallSettled s) := by
  have hstall : KeepsPlant s (recompute (evalStall s)) := by simp [KeepsPlant, evalStall]
  exact hstall.trans (arbiterPass_frame _)

theorem stallSettled_level :
    LevelBecomes .stall (s.motion.state == .still && s.prof.committed.isSome) s
      (stallSettled s) := by
  have hstall := setConditionAll_becomes .stall
    (s.motion.state == .still && s.prof.committed.isSome) s
  have hafter : KeepsLevels (evalStall s) (stallSettled s) :=
    (recompute_levels _).trans (arbiterPass_evolves _).levels
  exact hstall.keepsLevel (hafter.keepsLevel rfl)

theorem stallSettled_current : EnvelopeCurrent (stallSettled s) :=
  (arbiterPass_current _).env (recompute_envelopeCurrent _)

theorem stallSettled_rechecked : Rechecked s (stallSettled s) := by
  have hstall : Rechecked s (evalStall s) := .of_eq rfl rfl rfl rfl
  exact hstall.trans ((Rechecked.recompute _).trans (.arbiterPass _))

/-- With nothing waiting it changes the envelope and the notices alone. -/
theorem stallSettled_of_empty (hl : s.arb.list = []) :
    (stallSettled s).line = s.line ∧ (stallSettled s).arb = s.arb ∧
      (stallSettled s).log = s.log ∧ (stallSettled s).load = s.load ∧
      (stallSettled s).brk = s.brk := by
  have harb : (recompute (evalStall s)).arb = s.arb := by simp [evalStall]
  rw [stallSettled, arbiterPass_of_empty (by rw [harb]; exact hl)]
  simp [evalStall]

end

/-! ### A pulse that issues no step (R32, R33, R38) -/

/-- The web made MOVING: stall timer restarted, dwell timer and stall grace timer stopped. -/
def roused (pr : Profile) (s : State) : State :=
  let moved := s.setMotion
    { s.motion with state := .moving, dwellTimer := none, stallTimer := some (pr.stallLimit * 1000) }
  moved.setLine { moved.line with stallGrace := none }

theorem pulseMotion_of_moving {pr : Profile} {s : State} (h : s.motion.state = .moving) :
    pulseMotion pr s =
      s.setMotion { s.motion with stallTimer := some (pr.stallLimit * 1000) } := by
  rw [pulseMotion, h]
  rfl

theorem pulseMotion_of_still {pr : Profile} {s : State} (h : s.motion.state = .still) :
    pulseMotion pr s = stallSettled (roused pr s) := by
  rw [pulseMotion, h]
  rfl

/-- The counts P and D set. -/
def countedTo (p d : Nat) (s : State) : State := s.setMotion { s.motion with p := p, d := d }

/-- The counts feed neither the envelope nor the floor duty. -/
theorem countedTo_current (p d : Nat) (s : State) : KeepsCurrent s (countedTo p d s) :=
  .of_feeds ⟨rfl, rfl, rfl, rfl, rfl, rfl, rfl, rfl, rfl, rfl, rfl, rfl, Iff.rfl, fun _ => rfl⟩ rfl rfl

section
variable {pr : Profile} {s : State}

theorem forward_of_debt (h : 0 < s.motion.d) :
    forward pr s = countedTo s.motion.p (s.motion.d - 1) (pulseMotion pr s) := by
  obtain ⟨hp, hd⟩ := pulseMotion_counts pr s
  rw [← hp, ← hd]
  exact if_pos (hd ▸ h)

theorem forward_of_short (h : s.motion.d = 0) (hp : s.motion.p + 1 < pr.pulsesPerSeg) :
    forward pr s = countedTo (s.motion.p + 1) s.motion.d (pulseMotion pr s) := by
  obtain ⟨hp', hd'⟩ := pulseMotion_counts pr s
  rw [← hp', ← hd']
  exact (if_neg (by omega)).trans (if_neg (by omega))

theorem backward_of_progress (h : 0 < s.motion.p) :
    backward pr s = countedTo (s.motion.p - 1) s.motion.d (pulseMotion pr s) := by
  obtain ⟨hp, hd⟩ := pulseMotion_counts pr s
  rw [← hp, ← hd]
  exact if_pos (hp ▸ h)

theorem backward_of_start (h : s.motion.p = 0) :
    backward pr s = countedTo s.motion.p (min 65535 (s.motion.d + 1)) (pulseMotion pr s) := by
  obtain ⟨hp, hd⟩ := pulseMotion_counts pr s
  rw [← hp, ← hd]
  exact if_neg (by omega)

end

/-- What a pulse leaves that moves the reference by `f` and the counts to `p` and `d`. -/
theorem pulse_counts (pr : Profile) (s : State) (f : EncPair → EncPair) (p d : Nat) :
    let t := countedTo p d (pulseMotion pr (moveReference f s))
    let n := { s.motion with encRef := f s.motion.encRef, p := p, d := d }
    let st : Timer := some (pr.stallLimit * 1000)
    (s.motion.state = .moving → t = s.setMotion { n with stallTimer := st }) ∧
      (s.motion.state = .still →
        t.motion = { n with stallTimer := st, dwellTimer := none, state := .moving } ∧
        LevelBecomes .stall false s t ∧ t.env = envelopeOf t ∧
        t.line.stallGrace = none ∧ t.ring = s.ring ∧ t.prof = s.prof ∧
        t.brk.dets = s.brk.dets ∧ t.load.flow = s.load.flow ∧ t.load.peak = s.load.peak ∧
        (s.arb.list = [] →
          t.line = { s.line with stallGrace := none } ∧ t.arb = s.arb ∧ t.log = s.log ∧
          t.load = s.load ∧ t.brk = s.brk)) := by
  dsimp only
  refine ⟨fun h => ?_, fun h => ?_⟩
  · have hmoving : (moveReference f s).motion.state = .moving := h
    rw [pulseMotion_of_moving hmoving]
    rfl
  · have hstill : (moveReference f s).motion.state = .still := h
    let r := roused pr (moveReference f s)
    have hframe := stallSettled_frame r
    have hgrace := (stallSettled_rechecked r).counts.2.2.2.2.1
    rw [pulseMotion_of_still hstill]
    refine ⟨?_, stallSettled_level r, (countedTo_current p d _).env (stallSettled_current r), hgrace,
      hframe.ring, hframe.prof, hframe.dets, hframe.flow, hframe.peak, fun hl => ?_⟩
    · rw [countedTo, setMotion_motion, hframe.motion]
      rfl
    · exact stallSettled_of_empty r hl

theorem exec_reversePulse_of_committed {pr : Profile} {s : State}
    (h : s.prof.committed = some pr) :
    exec .reversePulse s = .next (backward pr (moveReference encReverse s)) := by
  rw [exec_reversePulse, execReversePulse, h]

/-- Settles O8: the four ways a pulse counts, each after the same rousing of the web. -/
theorem pulsesCount : Obligations.PulsesCount := by
  intro pr s hc
  have hforward : ∀ {p d}, forward pr (moveReference encForward s) =
        countedTo p d (pulseMotion pr (moveReference encForward s)) →
      exec .forwardPulse s =
        .next (countedTo p d (pulseMotion pr (moveReference encForward s))) :=
    fun h => (exec_forwardPulse_of_committed hc).trans (congrArg _ h)
  have hreverse : ∀ {p d}, backward pr (moveReference encReverse s) =
        countedTo p d (pulseMotion pr (moveReference encReverse s)) →
      exec .reversePulse s =
        .next (countedTo p d (pulseMotion pr (moveReference encReverse s))) :=
    fun h => (exec_reversePulse_of_committed hc).trans (congrArg _ h)
  refine ⟨fun hd => ?_, fun hd hp => ?_, fun hp => ?_, fun hp => ?_⟩
  · obtain ⟨hmoving, hstill⟩ := pulse_counts pr s encForward s.motion.p (s.motion.d - 1)
    have hexec := hforward (forward_of_debt (s := moveReference encForward s) hd)
    exact ⟨fun h => hexec.trans (congrArg _ (hmoving h)), fun h => ⟨_, hexec, hstill h⟩⟩
  · obtain ⟨hmoving, hstill⟩ := pulse_counts pr s encForward (s.motion.p + 1) s.motion.d
    have hexec := hforward (forward_of_short (s := moveReference encForward s) hd hp)
    exact ⟨fun h => hexec.trans (congrArg _ (hmoving h)), fun h => ⟨_, hexec, hstill h⟩⟩
  · obtain ⟨hmoving, hstill⟩ := pulse_counts pr s encReverse (s.motion.p - 1) s.motion.d
    have hexec := hreverse (backward_of_progress (s := moveReference encReverse s) hp)
    exact ⟨fun h => hexec.trans (congrArg _ (hmoving h)), fun h => ⟨_, hexec, hstill h⟩⟩
  · obtain ⟨hmoving, hstill⟩ :=
      pulse_counts pr s encReverse s.motion.p (min 65535 (s.motion.d + 1))
    have hexec := hreverse (backward_of_start (s := moveReference encReverse s) hp)
    exact ⟨fun h => hexec.trans (congrArg _ (hmoving h)), fun h => ⟨_, hexec, hstill h⟩⟩

/-! ### The stall expiry (R37, R94, R96) -/

/-- The web made STILL. -/
def stilled (pr : Profile) (s : State) : State :=
  let still := s.setMotion
    { s.motion with
      state := .still, vMeas := 0, last := none, stallTimer := none,
      dwellTimer := some (pr.dwellInterval * 1000) }
  still.setLine
    { still.line with
      stallGrace :=
        if s.line.phase.heated then some (pr.stallGrace * 1000) else s.line.stallGrace
      excess := none }

theorem becomeStill_eq {pr : Profile} {s : State} (h : s.prof.committed = some pr) :
    becomeStill s = stallSettled (stilled pr s) := by
  rw [becomeStill, h]
  rfl

/-- Settles O10: the web made STILL, then the STALL condition and the envelope. -/
theorem stallExpiry : Obligations.StallExpiry := by
  intro s
  refine ⟨fun h => ?_, fun pr hc h => ?_⟩
  · show execStallTimerExpiry s = _
    rw [execStallTimerExpiry, h]
  · obtain ⟨x, hx⟩ := Option.isSome_iff_exists.mp h
    have hexec : exec .stallTimerExpiry s = .next (stallSettled (stilled pr s)) := by
      show execStallTimerExpiry s = _
      rw [execStallTimerExpiry, hx, ← becomeStill_eq hc]
    have hframe := stallSettled_frame (stilled pr s)
    obtain ⟨-, -, -, -, hgrace, hexcess, -⟩ := (stallSettled_rechecked (stilled pr s)).counts
    have hlevel := stallSettled_level (stilled pr s)
    have hholds : ((stilled pr s).motion.state == .still &&
        (stilled pr s).prof.committed.isSome) = true := by
      have hprof : (stilled pr s).prof.committed = some pr := hc
      rw [hprof]
      rfl
    rw [hholds] at hlevel
    exact ⟨_, hexec, hframe.motion, hexcess, hgrace, hlevel, stallSettled_current _, hframe.ring,
      hframe.prof, hframe.dets, hframe.flow, hframe.peak⟩

/-! ### The runs of the zones (R3) -/

theorem takeWhile_getElem? {α : Type} {p : α → Bool} {l : List α} {i : Nat} {a : α}
    (h : (l.takeWhile p)[i]? = some a) : l[i]? = some a ∧ p a = true := by
  refine ⟨?_, List.mem_takeWhile_imp (List.mem_of_getElem? h)⟩
  obtain ⟨hlt, ha⟩ := List.getElem?_eq_some_iff.mp h
  exact (List.prefix_iff_getElem?.mp (List.takeWhile_prefix _) i hlt).trans (congrArg some ha)

/-- What follows the entries taken is not of their kind. -/
theorem takeWhile_next {α : Type} {p : α → Bool} {l : List α} {a : α}
    (h : l[(l.takeWhile p).length]? = some a) : p a = false := by
  induction l with
  | nil => simp at h
  | cons x l ih =>
    cases hx : p x with
    | true => exact ih (by simpa [List.takeWhile_cons, hx] using h)
    | false =>
      have hxa : x = a := by simpa [List.takeWhile_cons, hx] using h
      exact hxa ▸ hx

theorem spanSum_append (l m : List ZoneItems) : spanSum (l ++ m) = spanSum l + spanSum m := by
  simp [spanSum]

theorem spanSum_take_succ {l : List ZoneItems} {i : Nat} {e : ZoneItems} (h : l[i]? = some e) :
    spanSum (l.take (i + 1)) = spanSum (l.take i) + e.span := by
  rw [List.take_add_one, h, spanSum_append]
  simp [spanSum]

/-- The positions of the run of zone `i` have its place. -/
theorem placesFrom_getElem? {l : List ZoneItems} {i : Nat} {e : ZoneItems} (z : Nat) {q : Nat}
    (h : l[i]? = some e) (hlo : spanSum (l.take i) ≤ q) (hhi : q < spanSum (l.take i) + e.span) :
    (placesFrom z l)[q]? = some { zone := z + i, entry := e } := by
  induction l generalizing z i q with
  | nil => simp at h
  | cons x l ih =>
    rw [placesFrom, List.getElem?_append, List.length_replicate]
    cases i with
    | zero =>
      obtain rfl : x = e := by simpa using h
      have hq : q < x.span := by simpa [spanSum] using hhi
      rw [if_pos hq, List.getElem?_replicate, if_pos hq]
      rfl
    | succ i =>
      have hsum : spanSum ((x :: l).take (i + 1)) = x.span + spanSum (l.take i) := by
        simp [spanSum]
      rw [hsum] at hlo hhi
      rw [if_neg (by omega), ih (z + 1) h (by omega) (by omega)]
      congr 2
      omega

theorem zoneRuns (pr : Profile) : ZoneRuns pr := by
  have hdryers : pr.used.take pr.dryers.length = pr.dryers :=
    (List.prefix_iff_eq_take.mp (List.takeWhile_prefix _)).symm
  refine ⟨fun z e h => ?_, fun e h => ?_, fun z e h => ?_, fun e h => ?_, fun c => ?_, rfl,
    fun z e h => ⟨spanSum_take_succ h, fun q hlo hhi => ?_⟩, congrArg spanSum hdryers,
    congrArg spanSum (List.take_length ..), places_length pr⟩
  · obtain ⟨hz, hk⟩ := takeWhile_getElem? h
    exact ⟨hz, by simpa using hk⟩
  · simpa using takeWhile_next h
  · obtain ⟨hz, hk⟩ := takeWhile_getElem? h
    exact ⟨hz, by simpa using hk⟩
  · simpa using takeWhile_next h
  · exact List.getElem?_drop
  · exact (placesFrom_getElem? 0 h hlo hhi).trans (by rw [Nat.zero_add])

/-! ### The dwell step (R20, R22, R39) -/

/-- The stranding rule of R20 as a flag. -/
theorem strandHot_eq (pr : Profile) (e : ZoneItems) (r : SegRecord) :
    strandHot pr e r =
      { r with
        stranded := r.stranded ||
          (r.kind != .void && e.kind == .dryer &&
            r.heat.any (fun h => decide (pr.releaseTemp ≤ h.temp))) } := by
  obtain ⟨seq, kind, solvent, heat, stranded, tag⟩ := r
  unfold strandHot
  by_cases hk : kind ≠ .void ∧ e.kind = .dryer
  · rw [if_pos hk]
    cases heat with
    | none => simp
    | some h => by_cases hhot : pr.releaseTemp ≤ h.temp <;> simp [hk, hhot]
  · have hflag : (kind != .void && e.kind == .dryer) = false := by
      simpa [not_and_or] using hk
    rw [if_neg hk, hflag]
    simp

theorem computeAll_at {pr : Profile} {rg : Ring} (t : Nat) {q : Nat} {pl : Place} {r : SegRecord}
    (hpl : pr.places[q]? = some pl) (hr : rg.records[q]? = some r) :
    (computeAll pr rg t)[q]? = some (computeRecord pr rg.inputs t pl r) :=
  List.getElem?_zipWith_eq_some.mpr ⟨pl, r, hpl, hr, rfl⟩

/-- What the load unit's part of a step leaves alone. -/
theorem loadStep_keeps (pr : Profile) (s : State) :
    (loadStep pr s).motion = s.motion ∧ (loadStep pr s).ring = s.ring ∧
      (loadStep pr s).prof = s.prof ∧ (loadStep pr s).brk.dets = s.brk.dets ∧
      (loadStep pr s).load.flow = s.load.flow ∧ (loadStep pr s).time = s.time := by
  have h := (evalLoadConditions_keeps (loadTaken pr s)).trans (loadStep_evolves pr s).keeps
  exact ⟨h.motion, h.ring, h.prof, h.dets, h.flow, h.time⟩

/-- The ring's part of a dwell step. -/
def dwelt (pr : Profile) (s : State) : State :=
  let timed := s.setMotion { s.motion with dwellTimer := some (pr.dwellInterval * 1000) }
  timed.setRing (dwellRing pr (pr.dwellInterval * 1000) timed.ring)

theorem issueDwell_eq (pr : Profile) (s : State) :
    issueDwell pr s = arbiterPass (recompute (loadStep pr (dwelt pr s))) := rfl

/-- Settles O11: the runs of the zones, the computation at each place, and the dwell step's blocks. -/
theorem dwellExpiry : Obligations.DwellExpiry := by
  intro pr s hc hrun
  refine ⟨zoneRuns pr, fun q pl r hpl hr => computeAll_at _ hpl hr, _,
    exec_dwellTimerExpiry_of_running hc hrun, ?_⟩
  have hframe := (Evolves.recompute (loadStep pr (dwelt pr s))).keeps.trans (arbiterPass_frame _)
  obtain ⟨hmotion, hring, hprof, hdets, hflow, -⟩ := loadStep_keeps pr (dwelt pr s)
  rw [issueDwell_eq, hframe.motion, hframe.ring, hframe.prof, hframe.dets, hframe.flow, hmotion,
    hring, hprof, hdets, hflow]
  refine ⟨rfl, ?_, rfl, rfl, rfl, rfl, rfl, rfl, rfl, rfl, rfl, rfl, rfl⟩
  have hstrand : ∀ (pl : Place) (c : Computed), strandHot pr pl.entry c.record = _ :=
    fun pl c => strandHot_eq pr pl.entry c.record
  simp only [dwelt, setRing_ring, dwellRing, hstrand]
  rfl

end Sys2Proof.Machine
end

section
/-! PROOFS. The ADVANCE step through the blocks (R15 to R19, R34 to R36). -/
namespace Sys2Proof.Machine

theorem KeepsPlant.peakZone {s t : State} (h : KeepsPlant s t) :
    t.load.peakZone = s.load.peakZone := h.2.2.2.2.2.2.1

theorem KeepsPlant.tripCount {s t : State} (h : KeepsPlant s t) :
    t.load.tripCount = s.load.tripCount := h.2.2.2.2.2.2.2.1

/-! ### The idle flag at an ADVANCE (R74) -/

theorem phaseWrite_idle_of_heated {p : Phase} (hp : p.heated = true) (c : Cause) (s : State) :
    (phaseWrite p c s).env.idle = s.env.idle := by
  by_cases h : s.line.phase = p
  · rw [phaseWrite_same h]
  · rw [phaseWrite_idle h, hp, Bool.true_and]

theorem enterDraining_keepsIdle (c : Cause) (s : State) :
    (enterDraining c s).env.idle = s.env.idle := by
  have hentered : (drainEntered c s).env.idle = s.env.idle := phaseWrite_idle_of_heated rfl c s
  rw [enterDraining_eq]
  split
  · exact (endDrain_idle (drainEntered_phase c s)).trans hentered
  · exact hentered

theorem fillStep_idle (s : State) : (fillStep s).env.idle = s.env.idle := by
  unfold fillStep
  split
  · dsimp only
    split
    · simp
    · rfl
  · rfl

theorem runStep_idle (s : State) : (runStep s).env.idle = s.env.idle := by
  cases hr : s.line.run with
  | none => rw [runStep_of_none hr]
  | some r =>
    cases hc : s.counted with
    | false => rw [runStep_of_uncounted hc]
    | true =>
      by_cases h : 1 < r.current
      · rw [runStep_of_running hr hc h]
        rfl
      · rw [runStep_of_last hr hc (by omega)]
        cases hrep : r.repeats with
        | true => simp [runEnd, hrep]
        | false =>
          rw [runEnd_ends hrep, enterDraining_keepsIdle]
          rfl

theorem drainStep_idle (s : State) : (drainStep s).env.idle = s.env.idle := by
  unfold drainStep
  split
  · next h =>
    dsimp only
    split
    · exact endDrain_idle (s := drainCounted s) h.1
    · rfl
  · rfl

theorem excessTest_idle (pr : Profile) (c : Nat) (s : State) :
    (excessTest pr c s).env.idle = s.env.idle := by
  unfold excessTest
  split
  · split
    · split <;> rfl
    · rfl
  · rfl

theorem phaseAdvance_idle (pr : Profile) (c : Nat) (s : State) :
    (phaseAdvance pr c s).env.idle = s.env.idle := by
  rw [phaseAdvance, excessTest_idle, drainStep_idle, runStep_idle, fillStep_idle]

/-! ### The blocks after the load unit -/

/-- The envelope unit, the phase unit and the arbiter at an ADVANCE. -/
def advanceTail (pr : Profile) (s : State) : State :=
  let computed := recompute (setIdle false s)
  settleObserve .advance
    (arbiterPass (phaseAdvance pr computed.env.ceiling (arbiterPass computed)))

theorem afterAdvance_eq (pr : Profile) (s : State) :
    afterAdvance pr s = advanceTail pr (loadStep pr s) := rfl

theorem advanceTail_frame (pr : Profile) (s : State) : KeepsPlant s (advanceTail pr s) :=
  (Evolves.trans (.trans (.idle false s) (.recompute _)) (.trans (arbiterPass_evolves _)
    (.trans (phaseAdvance_evolves pr _ _)
      (.trans (arbiterPass_evolves _) (settleObserve_evolves _ _))))).keeps

theorem advanceTail_idle (pr : Profile) (s : State) : (advanceTail pr s).env.idle = false := by
  rw [advanceTail, (Rechecked.settleObserve _ _).idle, (Rechecked.arbiterPass _).idle,
    phaseAdvance_idle, (Rechecked.arbiterPass _).idle]
  simp

/-! ### The ADVANCE -/

/-- What a pulse's rousing of the web leaves alone, and the motion unit after it. -/
theorem pulseMotion_keeps (pr : Profile) (s : State) :
    (pulseMotion pr s).motion =
        { s.motion with
          state := .moving, stallTimer := some (pr.stallLimit * 1000),
          dwellTimer := if s.motion.state = .still then none else s.motion.dwellTimer } ∧
      (pulseMotion pr s).ring = s.ring ∧ (pulseMotion pr s).prof = s.prof ∧
      (pulseMotion pr s).brk.dets = s.brk.dets ∧ (pulseMotion pr s).load.flow = s.load.flow ∧
      (pulseMotion pr s).load.tripCount = s.load.tripCount ∧
      (pulseMotion pr s).time = s.time := by
  cases h : s.motion.state with
  | moving =>
    rw [pulseMotion_of_moving h]
    exact ⟨by simp [h], rfl, rfl, rfl, rfl, rfl, rfl⟩
  | still =>
    have hframe := stallSettled_frame (roused pr s)
    rw [pulseMotion_of_still h]
    exact ⟨hframe.motion, hframe.ring, hframe.prof, hframe.dets, hframe.flow, hframe.tripCount,
      hframe.time⟩

/-- Rousing the web leaves the phase, or moves it between the phases of the ready test. -/
theorem pulseMotion_phase (pr : Profile) (s : State) :
    (s.line.phase.tested = false →
      (pulseMotion pr s).line.phase = s.line.phase ∧
        (pulseMotion pr s).line.cause = s.line.cause) ∧
      (s.line.phase.tested = true → (pulseMotion pr s).line.phase.tested = true) := by
  cases h : s.motion.state with
  | moving =>
    rw [pulseMotion_of_moving h]
    exact ⟨fun _ => ⟨rfl, rfl⟩, id⟩
  | still =>
    have hchecked := stallSettled_rechecked (roused pr s)
    rw [pulseMotion_of_still h]
    refine ⟨fun ht => ?_, hchecked.tested⟩
    obtain ⟨hphase, hcause, -⟩ := hchecked.line ht
    exact ⟨hphase, hcause⟩

/-- No rousing of the web starts or ends a phase the ready test does not move to. -/
theorem pulseMotion_phase_iff {p : Phase} (hp : p.tested = false) (pr : Profile) (s : State) :
    (pulseMotion pr s).line.phase = p ↔ s.line.phase = p := by
  obtain ⟨hkept, htested⟩ := pulseMotion_phase pr s
  cases ht : s.line.phase.tested with
  | false => rw [(hkept ht).1]
  | true =>
    have hne : ∀ q : Phase, q.tested = true → q ≠ p := fun q hq h => by
      rw [h, hp] at hq
      exact absurd hq (by simp)
    exact iff_of_false (hne _ (htested ht)) (hne _ ht)

/-- The motion unit's part of an ADVANCE (R34 to R36). -/
def advanceTimed (pr : Profile) (s : State) : State :=
  let moving := pulseMotion pr (moveReference encForward s)
  moving.setMotion
    { moving.motion with
      p := 0, tStep := stepTime pr s.motion, vMeas := measuredSpeed pr (stepTime pr s.motion),
      last := some { instant := s.time.us, elapsed := 0 } }

theorem advanceTimed_motion {s : State} (pr : Profile) (h : s.motion.d = 0) :
    (advanceTimed pr s).motion =
      { p := 0, d := 0, last := some { instant := s.time.us, elapsed := 0 },
        tStep := stepTime pr s.motion, vMeas := measuredSpeed pr (stepTime pr s.motion),
        state := .moving, stallTimer := some (pr.stallLimit * 1000),
        dwellTimer := if s.motion.state = .still then none else s.motion.dwellTimer,
        encRef := encForward s.motion.encRef } := by
  rw [advanceTimed, setMotion_motion, (pulseMotion_keeps pr (moveReference encForward s)).1]
  simp [moveReference, h]

theorem forward_advances {pr : Profile} {s : State} (hd : s.motion.d = 0)
    (hp : pr.pulsesPerSeg ≤ s.motion.p + 1) :
    forward pr (moveReference encForward s) =
      advanceTail pr (loadStep pr (ringAdvance pr (stepTime pr s.motion) (advanceTimed pr s))) := by
  obtain ⟨hmotion, -, -, -, -, -, htime⟩ := pulseMotion_keeps pr (moveReference encForward s)
  have hstep : stepTime pr (pulseMotion pr (moveReference encForward s)).motion =
      stepTime pr s.motion := by
    rw [hmotion]
    rfl
  rw [forward_of_complete (s := moveReference encForward s) hd hp, issueAdvance, hstep, htime]
  rfl

theorem ringAdvance_keeps (pr : Profile) (t : Nat) (s : State) :
    (ringAdvance pr t s).ring = advanceRing pr s.line.phase t s.ring ∧
      (ringAdvance pr t s).motion = s.motion ∧ (ringAdvance pr t s).prof = s.prof ∧
      (ringAdvance pr t s).brk.dets = s.brk.dets ∧ (ringAdvance pr t s).load.flow = s.load.flow ∧
      (ringAdvance pr t s).load.tripCount = s.load.tripCount ∧
      (ringAdvance pr t s).line = s.line := by
  unfold ringAdvance
  dsimp only
  split
  · next r _ =>
    have hframe := (handOff_evolves pr r s).keeps
    refine ⟨rfl, hframe.motion, hframe.prof, hframe.dets, hframe.flow, hframe.tripCount, ?_⟩
    rw [setRing_line]
    by_cases hv : r.kind = .void
    · rw [handOff, if_pos hv]
    · cases hh : r.heat with
      | none => simp [handOff, hv, hh]
      | some h => rw [handOff_of_heat s hv hh]; split <;> simp
  · exact ⟨rfl, rfl, rfl, rfl, rfl, rfl, rfl⟩

/-- Settles O9: the motion unit's timing, the ring's step, and the other blocks as the command runs them. -/
theorem advanceStep : Obligations.AdvanceStep := by
  intro pr s hc hd hp
  let v := ringAdvance pr (stepTime pr s.motion) (advanceTimed pr s)
  let u := advanceTail pr (loadStep pr v)
  have hexec : exec .forwardPulse s = .next u :=
    (exec_forwardPulse_of_committed hc).trans (congrArg _ (forward_advances hd hp))
  obtain ⟨-, hring, hprof, hdets, hflow, -, -⟩ :=
    pulseMotion_keeps pr (moveReference encForward s)
  obtain ⟨vring, vmotion, vprof, vdets, vflow, -, -⟩ :=
    ringAdvance_keeps pr (stepTime pr s.motion) (advanceTimed pr s)
  obtain ⟨lmotion, lring, lprof, ldets, lflow, -⟩ := loadStep_keeps pr v
  have hframe := advanceTail_frame pr (loadStep pr v)
  have htimed : (advanceTimed pr s).ring = s.ring := hring
  have hphase : (advanceTimed pr s).line.phase = .printing ↔ s.line.phase = .printing :=
    pulseMotion_phase_iff (p := .printing) rfl pr (moveReference encForward s)
  have hkind : (if (advanceTimed pr s).line.phase = .printing then SegKind.printed else .blank) =
      if s.line.phase = .printing then .printed else .blank := if_congr hphase rfl rfl
  have umotion : u.motion = (advanceTimed pr s).motion :=
    hframe.motion.trans (lmotion.trans vmotion)
  have uring : u.ring =
      advanceRing pr (advanceTimed pr s).line.phase (stepTime pr s.motion) s.ring := by
    rw [← htimed]
    exact hframe.ring.trans (lring.trans vring)
  refine ⟨u, hexec, ?_, ?_⟩
  · exact umotion.trans (advanceTimed_motion pr hd)
  · rw [uring]
    refine ⟨?_, rfl, rfl, rfl, rfl, rfl, rfl, rfl, hframe.prof.trans (lprof.trans (vprof.trans hprof)),
      hframe.dets.trans (ldets.trans (vdets.trans hdets)),
      hframe.flow.trans (lflow.trans (vflow.trans hflow)), advanceTail_idle _ _, ?_, ?_⟩
    · have hcharge : (if (advanceTimed pr s).line.phase = .printing then s.ring.charge else 0) =
          if (if s.line.phase = .printing then SegKind.printed else .blank) = .printed then
            s.ring.charge else 0 := by
        rw [if_congr hphase rfl rfl]
        by_cases h : s.line.phase = .printing <;> simp [h]
      simp only [advanceRing, enteringRecord, hkind, hcharge]
      rfl
    · simp only [advanceRing, enteringRecord, hkind]
      rfl
    · rw [umotion, ← htimed]
      rfl

end Sys2Proof.Machine
end

section
/-! PROOFS. The trip-step counter and the load trip (R50, R51). -/
namespace Sys2Proof.Machine

/-! ### The load unit's step -/

/-- The load unit after a step, before the trip. -/
def loadBooked (pr : Profile) (s : State) : State :=
  setFloorDuty (evalLoadConditions (loadTaken pr s))

/-- The trip-step counter after a step, as the load unit forms it. -/
def stepTripCount (pr : Profile) (s : State) : Nat :=
  tripCountAfter pr (loadsOf pr s.ring s.load.flow s.load)

theorem loadStep_eq (pr : Profile) (s : State) :
    loadStep pr s =
      if tripsAt pr s.load.tripCount (stepTripCount pr s) then loadTrip (loadBooked pr s)
      else loadBooked pr s := rfl

theorem loadBooked_keeps (pr : Profile) (s : State) :
    (loadBooked pr s).line = s.line ∧ (loadBooked pr s).arb = s.arb ∧
      (loadBooked pr s).log = s.log ∧ (loadBooked pr s).time = s.time ∧
      (loadBooked pr s).motion = s.motion := by
  unfold loadBooked evalLoadConditions
  split <;> simp [loadTaken]

/-- The counter, and the threshold it goes by (R50). -/
theorem loadStep_tripCount (pr : Profile) (s : State) :
    (loadStep pr s).load.tripCount = stepTripCount pr s ∧
      stepTripCount pr s =
        if pr.loadTrip ≤ (loadStep pr s).load.peak then min 255 (s.load.tripCount + 1) else 0 := by
  have hframe := (evalLoadConditions_keeps (loadTaken pr s)).trans (loadStep_evolves pr s).keeps
  refine ⟨hframe.tripCount, ?_⟩
  rw [hframe.peak]
  rfl

/-- The peak the TRIP record carries is the one the step leaves. -/
theorem loadStep_peak (pr : Profile) (s : State) :
    (loadStep pr s).load.peak = (loadBooked pr s).load.peak ∧
      (loadStep pr s).load.peakZone = (loadBooked pr s).load.peakZone := by
  have hstep := (loadStep_evolves pr s).keeps
  have hbooked := (Evolves.duty (evalLoadConditions (loadTaken pr s))).keeps
  exact ⟨hstep.peak.trans hbooked.peak.symm, hstep.peakZone.trans hbooked.peakZone.symm⟩

/-! ### The trip -/

section
variable {pr : Profile} {s : State}
  (ht : tripsAt pr s.load.tripCount (stepTripCount pr s) = true)
include ht

/-- The step trips: the TRIP record, then SAFE. -/
theorem loadStep_trips :
    loadStep pr s =
      enterSafe .loadTrip
        (logAppend (.trip (loadStep pr s).load.peakZone (loadStep pr s).load.peak)
          (loadBooked pr s)) := by
  obtain ⟨hpeak, hzone⟩ := loadStep_peak pr s
  rw [hpeak, hzone, loadStep_eq, if_pos ht]
  rfl

/-- In SAFE a trip adds its record. -/
theorem loadStep_trips_safe (h : s.line.phase = .safe) :
    (loadStep pr s).line = s.line ∧
      (loadStep pr s).log =
        (logAppend (.trip (loadStep pr s).load.peakZone (loadStep pr s).load.peak) s).log := by
  obtain ⟨hline, -, hlog, htime, -⟩ := loadBooked_keeps pr s
  have hbooked := logAppend_frame
    (.trip (loadStep pr s).load.peakZone (loadStep pr s).load.peak) (loadBooked pr s)
  obtain ⟨-, -, -, -, -, -, kline, -⟩ := hbooked
  have heq := loadStep_trips ht
  rw [enterSafe_of_unmoved (.inr (by rw [kline, hline]; exact h))] at heq
  have hlog' := logAppend_log_congr
    (.trip (loadStep pr s).load.peakZone (loadStep pr s).load.peak) hlog htime
  exact ⟨(congrArg State.line heq).trans (kline.trans hline),
    (congrArg State.log heq).trans hlog'⟩

/-- In any other configured phase a trip is a change to SAFE taken whole. -/
theorem loadStep_trips_stops (hu : s.line.phase ≠ .unconfigured) (hs : s.line.phase ≠ .safe) :
    (loadStep pr s).line.phase = .safe ∧ (loadStep pr s).line.cause = .loadTrip ∧
      (loadStep pr s).arb.list = [] ∧ (loadStep pr s).arb.inFlight = none ∧
      (s.line.phase = .printing →
        (loadStep pr s).line.fill = 0 ∧ (loadStep pr s).line.run = none) ∧
      (loadStep pr s).log =
        (logAppend (.phase s.line.phase .safe .loadTrip s.motion.vMeas)
          (logAppend (.trip (loadStep pr s).load.peakZone (loadStep pr s).load.peak) s)).log := by
  obtain ⟨hline, -, hlog, htime, hmotion⟩ := loadBooked_keeps pr s
  let w := logAppend (.trip (loadStep pr s).load.peakZone (loadStep pr s).load.peak)
    (loadBooked pr s)
  obtain ⟨wtime, wmotion, -, -, -, -, wline, -⟩ := logAppend_frame
    (.trip (loadStep pr s).load.peakZone (loadStep pr s).load.peak) (loadBooked pr s)
  have hwline : w.line = s.line := wline.trans hline
  have hne : w.line.phase ≠ .safe := by rw [hwline]; exact hs
  have heq : loadStep pr s = phaseWrite .safe .loadTrip w :=
    (loadStep_trips ht).trans (enterSafe_of_configured (by rw [wline, hline]; exact hu) _)
  have kline : (loadStep pr s).line = lineOnChange w .safe .loadTrip :=
    (congrArg State.line heq).trans (phaseWrite_line hne)
  obtain ⟨hlist, hflight, -⟩ := phaseWrite_arb_safe (c := .loadTrip) hne rfl
  have hwlog := logAppend_log_congr
    (.trip (loadStep pr s).load.peakZone (loadStep pr s).load.peak) hlog htime
  refine ⟨?_, ?_, ?_, ?_, fun hp => ?_, ?_⟩
  · rw [kline]; rfl
  · rw [kline]; rfl
  · rw [heq]; exact hlist
  · rw [heq]; exact hflight
  · rw [kline]
    exact ⟨if_pos (by rw [hwline]; exact hp), if_pos (by rw [hwline]; exact hp)⟩
  · refine (congrArg State.log heq).trans ((phaseWrite_log hne).trans ?_)
    have hvmeas : w.motion.vMeas = s.motion.vMeas :=
      congrArg Motion.vMeas (wmotion.trans hmotion)
    rw [hwline, hvmeas]
    refine logAppend_log_congr _ hwlog ?_
    exact (wtime.trans htime).trans (logAppend_frame _ s).1.symm

end

/-! ### What follows the load unit in SAFE -/

/-- With nothing in flight nothing is observed. -/
theorem settleObserve_of_flightless (o : Observation) {s : State} (h : s.arb.inFlight = none) :
    settleObserve o s = s := by
  cases hp : s.prof.committed <;> simp only [settleObserve, hp, h]

/-- The rest of a step keeps SAFE and, with nothing standing, the arbiter. -/
structure Rests (s u : State) : Prop where
  phase : u.line.phase = s.line.phase
  cause : u.line.cause = s.line.cause
  arb : s.arb.list = [] → s.arb.inFlight = none → u.arb = s.arb
  log : u.log = s.log

namespace Rests

variable {s t u : State}

theorem trans (h : Rests s t) (k : Rests t u) : Rests s u := by
  refine ⟨k.phase.trans h.phase, k.cause.trans h.cause, fun hl hf => ?_, k.log.trans h.log⟩
  have harb := h.arb hl hf
  exact (k.arb ((congrArg Arbiter.list harb).trans hl)
    ((congrArg Arbiter.inFlight harb).trans hf)).trans harb

theorem of_rechecked (h : Rechecked s u) (hs : s.line.phase = .safe)
    (ha : s.arb.list = [] → s.arb.inFlight = none → u.arb = s.arb) : Rests s u := by
  have huntested : s.line.phase.tested = false := by rw [hs]; rfl
  obtain ⟨hphase, hcause, -⟩ := h.line huntested
  exact ⟨hphase, hcause, ha, h.log huntested⟩

theorem arbiterPass (hs : s.line.phase = .safe) : Rests s (arbiterPass s) :=
  of_rechecked (.arbiterPass s) hs fun hl _ => congrArg State.arb (arbiterPass_of_empty hl)

theorem recompute (hs : s.line.phase = .safe) : Rests s (recompute s) :=
  of_rechecked (.recompute s) hs fun _ _ => by simp

theorem settleObserve (o : Observation) (hs : s.line.phase = .safe) :
    Rests s (settleObserve o s) := by
  refine of_rechecked (.settleObserve o s) hs fun _ hf => ?_
  rw [settleObserve_of_flightless o hf]

end Rests

/-- In SAFE, a step that counts nothing leaves the phase unit as it is (R90 to R93, R96). -/
theorem phaseAdvance_of_safe {pr : Profile} {c : Nat} {s : State} (h : s.line.phase = .safe)
    (hc : s.counted = false ∨ (s.line.fill = 0 ∧ s.line.run = none)) :
    phaseAdvance pr c s = s := by
  have hfill : fillStep s = s := hc.elim fillStep_of_uncounted fun h => fillStep_of_filled h.1
  have hrun : runStep s = s := hc.elim runStep_of_uncounted fun h => runStep_of_none h.2
  have hdrain : drainStep s = s := drainStep_of_idle (.inl (by simp [h]))
  rw [phaseAdvance, hfill, hrun, hdrain, excessTest_of_cold (by rw [h]; rfl)]

theorem advanceTail_rests {pr : Profile} {s : State} (h : s.line.phase = .safe)
    (hc : s.counted = false ∨ (s.line.fill = 0 ∧ s.line.run = none)) :
    Rests s (advanceTail pr s) := by
  have hidle : Rests s (setIdle false s) := ⟨rfl, rfl, fun _ _ => rfl, rfl⟩
  have hcomputed := hidle.trans (.recompute (s := setIdle false s) h)
  have hphase : (recompute (setIdle false s)).line.phase = .safe := hcomputed.phase.trans h
  have hpassed := hcomputed.trans (.arbiterPass hphase)
  have hphase' : (arbiterPass (recompute (setIdle false s))).line.phase = .safe :=
    hpassed.phase.trans h
  have hcounted : (arbiterPass (recompute (setIdle false s))).counted = false ∨
      ((arbiterPass (recompute (setIdle false s))).line.fill = 0 ∧
        (arbiterPass (recompute (setIdle false s))).line.run = none) := by
    obtain ⟨hfill, hrun, -⟩ := (Rechecked.arbiterPass (recompute (setIdle false s))).counts
    have hring := (arbiterPass_frame (recompute (setIdle false s))).ring
    rw [State.counted, hfill, hrun, hring]
    simpa [State.counted] using hc
  have hsecond := hpassed.trans (.arbiterPass hphase')
  rw [advanceTail]
  simp only [phaseAdvance_of_safe hphase' hcounted]
  exact hsecond.trans (.settleObserve _ (hsecond.phase.trans h))

/-! ### The two steps -/

/-- What the load trip of a step needs of the state before the load unit takes it. -/
structure AheadOfTrip (s v : State) : Prop where
  tripCount : v.load.tripCount = s.load.tripCount
  configured : s.line.phase ≠ .unconfigured → v.line.phase ≠ .unconfigured
  stopped : v.line.phase = .safe ↔ s.line.phase = .safe
  cause : s.line.phase = .safe → v.line.cause = s.line.cause

/-- The trip of a step, from the state `v` before the load unit to the end `u` of the step. -/
theorem tripRule {pr : Profile} {s v u : State} (hv : AheadOfTrip s v)
    (hframe : KeepsPlant (loadStep pr v) u)
    (hrest : (loadStep pr v).line.phase = .safe →
      tripsAt pr v.load.tripCount (stepTripCount pr v) = true → Rests (loadStep pr v) u) :
    u.load.tripCount =
        (if pr.loadTrip ≤ u.load.peak then min 255 (s.load.tripCount + 1) else 0) ∧
      (s.load.tripCount < pr.tripGrace → u.load.tripCount = pr.tripGrace →
        (s.line.phase ≠ .unconfigured → u.line.phase = .safe) ∧
        (s.line.phase ≠ .unconfigured → s.line.phase ≠ .safe →
          u.line.cause = .loadTrip ∧ u.arb.list = [] ∧ u.arb.inFlight = none ∧
          u.log =
            (logAppend (.phase v.line.phase .safe .loadTrip v.motion.vMeas)
              (logAppend (.trip u.load.peakZone u.load.peak) v)).log) ∧
        (s.line.phase = .safe →
          u.line.cause = s.line.cause ∧
          u.log = (logAppend (.trip u.load.peakZone u.load.peak) v).log)) := by
  obtain ⟨hcount, hrule⟩ := loadStep_tripCount pr v
  rw [hframe.peak, hframe.peakZone, hframe.tripCount, hcount]
  refine ⟨hv.tripCount ▸ hrule, fun hbefore hafter => ?_⟩
  have htrips : tripsAt pr v.load.tripCount (stepTripCount pr v) = true := by
    simp [tripsAt, hv.tripCount, hbefore, hafter]
  have hphase : s.line.phase ≠ .unconfigured → (loadStep pr v).line.phase = .safe := fun hu => by
    by_cases hs : v.line.phase = .safe
    · rw [(loadStep_trips_safe htrips hs).1]
      exact hs
    · exact (loadStep_trips_stops htrips (hv.configured hu) hs).1
  refine ⟨fun hu => (hrest (hphase hu) htrips).phase.trans (hphase hu), fun hu hs => ?_, fun hs => ?_⟩
  · have hne : v.line.phase ≠ .safe := fun h => hs (hv.stopped.mp h)
    obtain ⟨-, hcause, hlist, hflight, -, hlog⟩ := loadStep_trips_stops htrips (hv.configured hu) hne
    have h := hrest (hphase hu) htrips
    have harb := h.arb hlist hflight
    exact ⟨h.cause.trans hcause, (congrArg Arbiter.list harb).trans hlist,
      (congrArg Arbiter.inFlight harb).trans hflight, h.log.trans hlog⟩
  · have hu : s.line.phase ≠ .unconfigured := by simp [hs]
    obtain ⟨hline, hlog⟩ := loadStep_trips_safe htrips (hv.stopped.mpr hs)
    have h := hrest (hphase hu) htrips
    exact ⟨h.cause.trans ((congrArg PhaseUnit.cause hline).trans (hv.cause hs)), h.log.trans hlog⟩

theorem dwelt_ahead (pr : Profile) (s : State) : AheadOfTrip s (dwelt pr s) :=
  ⟨rfl, id, Iff.rfl, fun _ => rfl⟩

/-- The state before the load unit takes an ADVANCE. -/
def advanced (pr : Profile) (s : State) : State :=
  ringAdvance pr (stepTime pr s.motion) (advanceTimed pr s)

theorem advanced_line (pr : Profile) (s : State) :
    (advanced pr s).line = (pulseMotion pr (moveReference encForward s)).line := by
  obtain ⟨-, -, -, -, -, -, hline⟩ :=
    ringAdvance_keeps pr (stepTime pr s.motion) (advanceTimed pr s)
  exact hline

theorem advanced_ahead (pr : Profile) (s : State) : AheadOfTrip s (advanced pr s) := by
  obtain ⟨-, -, -, -, -, htrip, -⟩ := ringAdvance_keeps pr (stepTime pr s.motion) (advanceTimed pr s)
  obtain ⟨-, -, -, -, -, hpulse, -⟩ := pulseMotion_keeps pr (moveReference encForward s)
  have hphase : ∀ p : Phase, p.tested = false →
      ((advanced pr s).line.phase = p ↔ s.line.phase = p) := fun p hp => by
    rw [advanced_line]
    exact pulseMotion_phase_iff hp pr (moveReference encForward s)
  refine ⟨htrip.trans hpulse, (hphase .unconfigured rfl).not.mpr, hphase .safe rfl, fun hs => ?_⟩
  rw [advanced_line]
  exact ((pulseMotion_phase pr (moveReference encForward s)).1 (by
    have : (moveReference encForward s).line.phase = .safe := hs
    rw [this]; rfl)).2

/-- Where an ADVANCE trips into SAFE, the phase unit counts nothing at it: the counts of PRINTING ended, and
outside PRINTING the record that entered is BLANK. -/
theorem advanced_uncounted {pr : Profile} {s : State}
    (ht : tripsAt pr (advanced pr s).load.tripCount (stepTripCount pr (advanced pr s)) = true) :
    (loadStep pr (advanced pr s)).counted = false ∨
      ((loadStep pr (advanced pr s)).line.fill = 0 ∧
        (loadStep pr (advanced pr s)).line.run = none) := by
  by_cases hp : (advanced pr s).line.phase = .printing
  · obtain ⟨-, -, -, -, hends, -⟩ := loadStep_trips_stops ht (by simp [hp]) (by simp [hp])
    exact .inr (hends hp)
  · left
    obtain ⟨hring, -, -, -, -, -, hline⟩ :=
      ringAdvance_keeps pr (stepTime pr s.motion) (advanceTimed pr s)
    have hline' : (advanced pr s).line = (advanceTimed pr s).line := hline
    rw [hline'] at hp
    rw [State.counted, (loadStep_keeps pr (advanced pr s)).2.1, advanced, hring]
    simp [advanceRing, enteringRecord, hp]

/-- Settles O17: both steps end in the same trip, before blocks that leave SAFE as it is. -/
theorem loadTripRule : Obligations.LoadTrip := by
  intro pr c s hc hstep
  rcases hstep with ⟨rfl, hd, hp⟩ | ⟨rfl, hrun⟩
  · have hexec : exec .forwardPulse s = .next (advanceTail pr (loadStep pr (advanced pr s))) :=
      (exec_forwardPulse_of_committed hc).trans (congrArg _ (forward_advances hd hp))
    obtain ⟨hcount, htrip⟩ := tripRule (advanced_ahead pr s)
      (advanceTail_frame pr (loadStep pr (advanced pr s)))
      (fun hsafe ht => advanceTail_rests hsafe (advanced_uncounted ht))
    refine ⟨_, hexec, hcount, fun hbefore hafter => ?_⟩
    obtain ⟨hphase, hstops, hsafe⟩ := htrip hbefore hafter
    refine ⟨hphase, fun hu hs => ?_, fun hs => ?_⟩
    · obtain ⟨hcause, hlist, hflight, -⟩ := hstops hu hs
      exact ⟨hcause, hlist, hflight, fun h => nomatch h⟩
    · exact ⟨(hsafe hs).1, fun h => nomatch h⟩
  · have hframe : KeepsPlant (loadStep pr (dwelt pr s)) (issueDwell pr s) :=
      (Evolves.trans (.recompute _) (arbiterPass_evolves _)).keeps
    obtain ⟨hcount, htrip⟩ := tripRule (dwelt_ahead pr s) hframe (fun hsafe _ =>
      have hcomputed := Rests.recompute hsafe
      hcomputed.trans (.arbiterPass (hcomputed.phase.trans hsafe)))
    refine ⟨_, exec_dwellTimerExpiry_of_running hc hrun, hcount, fun hbefore hafter => ?_⟩
    obtain ⟨hphase, hstops, hsafe⟩ := htrip hbefore hafter
    have hlog : ∀ b, (logAppend b (dwelt pr s)).log = (logAppend b s).log := fun b =>
      logAppend_log_congr b rfl rfl
    refine ⟨hphase, fun hu hs => ?_, fun hs => ?_⟩
    · obtain ⟨hcause, hlist, hflight, hboth⟩ := hstops hu hs
      refine ⟨hcause, hlist, hflight, fun _ => hboth.trans (logAppend_log_congr _ (hlog _) ?_)⟩
      exact (logAppend_frame _ _).1.trans (logAppend_frame _ s).1.symm
    · exact ⟨(hsafe hs).1, fun _ => (hsafe hs).2.trans (hlog _)⟩

end Sys2Proof.Machine
end

section
/-! PROOFS. Liveness: a valid frame's arrival, and the loss of a port (R105, R145, R172 to R174). -/
namespace Sys2Proof.Machine

/-! ### A valid frame's arrival (R172, R174) -/

/-- Port `p` heard: its receiver idle, ACTIVE, its window timer restarted. -/
def heard (p : Port) (s : State) : State :=
  s.modPort p (fun q =>
    { q with rx := .hunt, gap := none, live := .active, window := some (s.windowMs p * 1000) })

theorem receiverIdle_live (p : Port) (s : State) :
    ((receiverIdle p s).port p).live = (s.port p).live := by
  simp [receiverIdle]

/-- The arrival of a frame at a port, by its liveness. -/
theorem frameTaken_eq (p : Port) (s : State) :
    frameTaken p s =
      if (s.port p).live = .lost then
        arbiterPass (recompute (setFloorDuty
          (logAppend (.port p true (s.port p).action) (heard p s))))
      else heard p s := by
  have hlive := receiverIdle_live p s
  have haction : ((receiverIdle p s).port p).action = (s.port p).action := by simp [receiverIdle]
  have hheard : (receiverIdle p s).modPort p (fun q =>
      { q with live := .active, window := startMs ((receiverIdle p s).windowMs p) }) = heard p s :=
    modPort_modPort s p _ _
  unfold frameTaken frameLiveness
  dsimp only
  rw [hlive, haction, hheard]
  cases (s.port p).live <;> rfl

theorem heard_keeps (p : Port) (s : State) :
    (heard p s).line = s.line ∧ (heard p s).arb = s.arb ∧ (heard p s).log = s.log ∧
      (heard p s).time = s.time := ⟨rfl, rfl, rfl, rfl⟩

/-- What is made known to the load unit and the envelope unit leaves the plant's side alone. -/
theorem madeKnown_frame (s : State) :
    KeepsPlant s (arbiterPass (recompute (setFloorDuty s))) :=
  (Evolves.trans (.duty s) (.trans (.recompute _) (arbiterPass_evolves _))).keeps

theorem madeKnown_keepsPending (s : State) :
    KeepsPending s (arbiterPass (recompute (setFloorDuty s))) :=
  .of_evolves (Evolves.trans (.duty s) (.trans (.recompute _) (arbiterPass_evolves _)))

theorem madeKnown_rechecked (s : State) :
    Rechecked s (arbiterPass (recompute (setFloorDuty s))) := by
  have hduty : Rechecked s (setFloorDuty s) := .of_eq (by simp) (by simp) (by simp) (by simp)
  exact hduty.trans ((Rechecked.recompute _).trans (.arbiterPass _))

/-- With nothing waiting it leaves phase unit, arbiter and log alone. -/
theorem madeKnown_of_empty {s : State} (hl : s.arb.list = []) :
    (arbiterPass (recompute (setFloorDuty s))).line = s.line ∧
      (arbiterPass (recompute (setFloorDuty s))).arb = s.arb ∧
      (arbiterPass (recompute (setFloorDuty s))).log = s.log := by
  have harb : (recompute (setFloorDuty s)).arb = s.arb := by simp
  rw [arbiterPass_of_empty (by rw [harb]; exact hl)]
  simp

theorem madeKnown_standing {s : State} {key : ChangeKey}
    (h : Standing (arbiterPass (recompute (setFloorDuty s))) key) : Standing s key := by
  have harb : (recompute (setFloorDuty s)).arb = s.arb := by simp
  have hs := arbiterPass_standing h
  rw [Standing, harb] at hs
  exact hs

/-! ### What stands through a change of the phase -/

theorem holdEntry_key (s : State) (e : PendingEntry) : (holdEntry s e).key = e.key := by
  unfold holdEntry
  split <;> rfl

theorem Standing.of_map {s t : State} {key : ChangeKey} {f : PendingEntry → PendingEntry}
    (h : Standing t key) (harb : t.arb = { s.arb with list := s.arb.list.map f })
    (hf : ∀ e, (f e).key = e.key) : Standing s key := by
  rw [Standing, harb] at h
  refine h.imp (fun ⟨e, he, hk⟩ => ?_) id
  obtain ⟨x, hx, rfl⟩ := List.mem_map.mp he
  exact ⟨x, hx, (hf x).symm.trans hk⟩

/-- A phase change lets no new change stand. -/
theorem phaseWrite_standing {p : Phase} {c : Cause} {s : State} {key : ChangeKey}
    (h : Standing (phaseWrite p c s) key) : Standing s key := by
  by_cases hp : s.line.phase = p
  · rwa [phaseWrite_same hp] at h
  by_cases hsafe : p = .safe
  · obtain ⟨hlist, hflight, -⟩ := phaseWrite_arb_safe (c := c) hp hsafe
    rw [Standing, hlist, hflight] at h
    simp at h
  by_cases hd : p = .draining
  · exact h.of_map (phaseWrite_arb_draining hp hd) (holdEntry_key _)
  by_cases hold : s.line.phase = .draining
  · exact h.of_map (phaseWrite_arb_release hp hold hsafe) fun e => (releaseEntry_keeps _ e).1
  · rwa [Standing, phaseWrite_arb_other hp hold hsafe hd] at h

theorem enterHeating_standing {c : Cause} {s : State} {key : ChangeKey}
    (h : Standing (enterHeating c s) key) : Standing s key := by
  cases hr : s.isReady with
  | true =>
    rw [enterHeating_of_ready hr] at h
    have hheating : Standing (phaseWrite .heating c s) key :=
      phaseWrite_standing (s := writeReady true (phaseWrite .heating c s)) h
    exact phaseWrite_standing hheating
  | false =>
    rw [enterHeating_of_unready hr] at h
    exact phaseWrite_standing (p := .heating) (c := c) h

theorem enterDraining_standing {c : Cause} {s : State} {key : ChangeKey}
    (h : Standing (enterDraining c s) key) : Standing s key := by
  have hentered : Standing (drainEntered c s) key → Standing s key :=
    fun h => phaseWrite_standing (p := .draining) (c := c) h
  rw [enterDraining_eq] at h
  split at h
  · refine hentered ?_
    unfold endDrain at h
    dsimp only at h
    split at h
    · exact phaseWrite_standing (s := writeReady _ (drainEntered c s)) h
    · exact enterHeating_standing (s := writeReady _ (drainEntered c s)) h
  · exact hentered h

theorem lossPhase_standing {p : Port} {s : State} {key : ChangeKey}
    (h : Standing (lossPhase p s) key) : Standing s key := by
  unfold lossPhase at h
  split at h
  · exact h
  · split at h
    · exact enterDraining_standing h
    · exact h
  · unfold enterSafe at h
    split at h
    · exact h
    · exact phaseWrite_standing h

/-! ### The owner's loss (R145) -/

/-- The entries of `p` end, in list order. -/
def entriesLost (p : Port) (s : State) : State :=
  endPending (fun e => keyOwner e.key == p) .portLost s

theorem ownerLoss_of_flight {p : Port} {s : State} {c : InFlight} (h : s.arb.inFlight = some c)
    (hp : keyOwner c.key = p) : ownerLoss p s = endInFlight .portLost (entriesLost p s) := by
  have hflight : (entriesLost p s).arb.inFlight = some c := by simp [entriesLost, h]
  change (match (entriesLost p s).arb.inFlight with
    | some c => if keyOwner c.key = p then endInFlight .portLost (entriesLost p s)
      else entriesLost p s
    | none => entriesLost p s) = _
  rw [hflight]
  exact if_pos hp

theorem ownerLoss_of_other {p : Port} {s : State}
    (h : ∀ c, s.arb.inFlight = some c → keyOwner c.key ≠ p) : ownerLoss p s = entriesLost p s := by
  have hflight : (entriesLost p s).arb.inFlight = s.arb.inFlight := by simp [entriesLost]
  change (match (entriesLost p s).arb.inFlight with
    | some c => if keyOwner c.key = p then endInFlight .portLost (entriesLost p s)
      else entriesLost p s
    | none => entriesLost p s) = _
  rw [hflight]
  cases hc : s.arb.inFlight with
  | none => rfl
  | some c => exact if_neg (h c hc)

theorem ownerLoss_cases (p : Port) (s : State) :
    (∃ c, s.arb.inFlight = some c ∧ keyOwner c.key = p ∧
        ownerLoss p s = endInFlight .portLost (entriesLost p s)) ∨
      (∀ c, s.arb.inFlight = some c → keyOwner c.key ≠ p) ∧ ownerLoss p s = entriesLost p s := by
  by_cases h : ∃ c, s.arb.inFlight = some c ∧ keyOwner c.key = p
  · obtain ⟨c, hc, hp⟩ := h
    exact .inl ⟨c, hc, hp, ownerLoss_of_flight hc hp⟩
  · have hother : ∀ c, s.arb.inFlight = some c → keyOwner c.key ≠ p := fun c hc hp => h ⟨c, hc, hp⟩
    exact .inr ⟨hother, ownerLoss_of_other hother⟩

theorem ownerLoss_frame (p : Port) (s : State) : ArbiterOnly s (ownerLoss p s) := by
  rcases ownerLoss_cases p s with ⟨c, -, -, heq⟩ | ⟨-, heq⟩ <;> rw [heq]
  · simp [ArbiterOnly, entriesLost]
  · exact endPending_frame _ _ s

/-- After it nothing of the port's stands. -/
theorem ownerLoss_arb (p : Port) (s : State) :
    (ownerLoss p s).arb.list = s.arb.list.filter (fun e => !(keyOwner e.key == p)) ∧
      ∀ c, (ownerLoss p s).arb.inFlight = some c → keyOwner c.key ≠ p := by
  rcases ownerLoss_cases p s with ⟨c, -, -, heq⟩ | ⟨hother, heq⟩ <;> rw [heq]
  · simp [entriesLost]
  · refine ⟨by simp [entriesLost], fun c hc => hother c ?_⟩
    simpa [entriesLost] using hc

theorem ownerLoss_standing {p : Port} {s : State} {key : ChangeKey}
    (h : Standing (ownerLoss p s) key) : keyOwner key ≠ p := by
  obtain ⟨hlist, hflight⟩ := ownerLoss_arb p s
  rcases h with ⟨e, he, rfl⟩ | ⟨c, hc, rfl⟩
  · rw [hlist, List.mem_filter] at he
    simpa using he.2
  · exact hflight c hc

theorem ownerLoss_of_own {p : Port} {s : State} (h : ∀ e ∈ s.arb.list, keyOwner e.key = p) :
    (ownerLoss p s).arb.list = [] := by
  rw [(ownerLoss_arb p s).1, List.filter_eq_nil_iff]
  exact fun e he => by simp [h e he]

/-- The port that had a change standing has CHANGE_DONE pending. -/
theorem ownerLoss_noticed {p : Port} {s : State}
    (h : (∃ e ∈ s.arb.list, keyOwner e.key = p) ∨
      ∃ c, s.arb.inFlight = some c ∧ keyOwner c.key = p) :
    Notice.changeDone.inSet ((ownerLoss p s).port p).pendingSet = true := by
  rcases h with ⟨e, he, rfl⟩ | ⟨c, hc, hp⟩
  · have hentries : Notice.changeDone.inSet
        ((entriesLost (keyOwner e.key) s).port (keyOwner e.key)).pendingSet = true :=
      storeEnds_noticed (List.mem_filter.mpr ⟨he, by simp⟩) _ _
    rcases ownerLoss_cases (keyOwner e.key) s with ⟨c, -, -, heq⟩ | ⟨-, heq⟩ <;> rw [heq]
    · exact KeepsPending.endInFlight _ _ _ _ hentries
    · exact hentries
  · have hflight : (entriesLost p s).arb.inFlight = some c := by simp [entriesLost, hc]
    rw [ownerLoss_of_flight hc hp, ← hp] at *
    exact endInFlight_noticed hflight _

/-! ### The loss of a port (R173) -/

/-- Port `p` is LOST, logged and noticed at the other ports. -/
def lossTaken (p : Port) (s : State) : State :=
  raiseOthers .portLost p (logAppend (.port p false (s.port p).action)
    (s.modPort p (fun q => { q with live := .lost, window := none })))

/-- The holder's loss abandons the staged profile. -/
def holderLost (p : Port) (s : State) : State :=
  if s.prof.holder = some p then abandonProfile s else s

/-- The loss of port `p` up to its phase part. -/
def portLost (p : Port) (s : State) : State := holderLost p (ownerLoss p (lossTaken p s))

theorem portLoss_eq (p : Port) (s : State) :
    portLoss p s = arbiterPass (recompute (setFloorDuty (lossPhase p (portLost p s)))) := by
  have haction : ((s.modPort p (fun q => { q with live := .lost, window := none })).port p).action =
      (s.port p).action := by simp
  rw [portLoss, haction]
  rfl

section
variable (p : Port) (s : State)

theorem lossTaken_keeps :
    (lossTaken p s).line = s.line ∧ (lossTaken p s).arb = s.arb ∧
      (lossTaken p s).ring = s.ring ∧ (lossTaken p s).load = s.load ∧
      (lossTaken p s).motion = s.motion ∧ (lossTaken p s).time = s.time ∧
      (lossTaken p s).prof = s.prof ∧
      (lossTaken p s).log = (logAppend (.port p false (s.port p).action) s).log := by
  refine ⟨?_, ?_, ?_, ?_, ?_, ?_, ?_, ?_⟩
  all_goals try simp [lossTaken]
  exact logAppend_log_congr _ rfl rfl

theorem lossTaken_link (q : Port) :
    ((lossTaken p s).port q).link =
      if q = p then { (s.port p).link with live := .lost, window := none }
      else (s.port q).link := by
  simp only [lossTaken, raiseOthers_frame, logAppend_frame, modPort_port]
  split <;> rfl

theorem lossTaken_noticed {q : Port} (h : q ≠ p) :
    Notice.portLost.inSet ((lossTaken p s).port q).pendingSet = true := by
  simp [lossTaken, raiseOthers, h]

theorem holderLost_keeps :
    (holderLost p s).line = s.line ∧ (holderLost p s).arb = s.arb ∧
      (holderLost p s).ring = s.ring ∧ (holderLost p s).load = s.load ∧
      (holderLost p s).motion = s.motion ∧ (holderLost p s).time = s.time ∧
      (holderLost p s).log = s.log ∧ (holderLost p s).ports = s.ports ∧
      (holderLost p s).prof.committed = s.prof.committed ∧
      (holderLost p s).prof.holder = if s.prof.holder = some p then none else s.prof.holder := by
  unfold holderLost
  split <;> exact ⟨rfl, rfl, rfl, rfl, rfl, rfl, rfl, rfl, rfl, rfl⟩

/-- What the loss of a port leaves before its phase part. -/
theorem portLost_keeps :
    (portLost p s).line = s.line ∧ (portLost p s).ring = s.ring ∧ (portLost p s).load = s.load ∧
      (portLost p s).motion = s.motion ∧ (portLost p s).time = s.time ∧
      (portLost p s).prof.committed = s.prof.committed ∧
      (portLost p s).prof.holder = (if s.prof.holder = some p then none else s.prof.holder) ∧
      (portLost p s).log = (logAppend (.port p false (s.port p).action) s).log := by
  obtain ⟨hline, -, hring, hload, hmotion, htime, hprof, hlog⟩ := lossTaken_keeps p s
  obtain ⟨otime, omotion, oring, oload, -, -, oline, -, olog, oprof, -⟩ :=
    ownerLoss_frame p (lossTaken p s)
  obtain ⟨kline, -, kring, kload, kmotion, ktime, klog, -, kcommitted, kholder⟩ :=
    holderLost_keeps p (ownerLoss p (lossTaken p s))
  rw [oprof, hprof] at kcommitted kholder
  exact ⟨kline.trans (oline.trans hline), kring.trans (oring.trans hring),
    kload.trans (oload.trans hload), kmotion.trans (omotion.trans hmotion),
    ktime.trans (otime.trans htime), kcommitted, kholder, klog.trans (olog.trans hlog)⟩

theorem portLost_port (q : Port) :
    (portLost p s).port q = (ownerLoss p (lossTaken p s)).port q := by
  obtain ⟨-, -, -, -, -, -, -, hports, -⟩ := holderLost_keeps p (ownerLoss p (lossTaken p s))
  exact congrArg (PerPort.get · q) hports

theorem portLost_link (q : Port) :
    ((portLost p s).port q).link =
      if q = p then { (s.port p).link with live := .lost, window := none }
      else (s.port q).link := by
  obtain ⟨-, -, -, -, -, -, -, -, -, -, -, -, hlink⟩ := ownerLoss_frame p (lossTaken p s)
  rw [portLost_port, hlink, lossTaken_link]

theorem portLost_action : ((portLost p s).port p).action = (s.port p).action := by
  have h := portLost_link p s p
  rw [if_pos rfl] at h
  have haction := congrArg PortState.action h
  exact haction

theorem portLost_noticed {q : Port} (h : q ≠ p) :
    Notice.portLost.inSet ((portLost p s).port q).pendingSet = true := by
  rw [portLost_port]
  exact KeepsPending.of_evolves (ownerLoss_evolves p _) _ _ (lossTaken_noticed p s h)

theorem portLost_arb : (portLost p s).arb = (ownerLoss p (lossTaken p s)).arb :=
  (holderLost_keeps p (ownerLoss p (lossTaken p s))).2.1

theorem portLost_changeDone
    (h : (∃ e ∈ s.arb.list, keyOwner e.key = p) ∨
      ∃ c, s.arb.inFlight = some c ∧ keyOwner c.key = p) :
    Notice.changeDone.inSet ((portLost p s).port p).pendingSet = true := by
  rw [portLost_port]
  refine ownerLoss_noticed ?_
  rw [(lossTaken_keeps p s).2.1]
  exact h

theorem portLost_of_own (h : ∀ e ∈ s.arb.list, keyOwner e.key = p) :
    (portLost p s).arb.list = [] := by
  rw [portLost_arb]
  refine ownerLoss_of_own ?_
  rw [(lossTaken_keeps p s).2.1]
  exact h

/-- The ready test and the drain count do not go by the holder. -/
theorem portLost_tests :
    (portLost p s).isReady = s.isReady ∧ (portLost p s).drainNow = s.drainNow := by
  obtain ⟨hline, hring, hload, -, -, hcommitted, -⟩ := portLost_keeps p s
  constructor
  · simp only [State.isReady, readyTest, hline, hring, hload, hcommitted]
  · simp only [State.drainNow, hring, hcommitted]

end

/-! ### The phase part of a loss (R105) -/

section
variable {p : Port} {s : State}

theorem lossPhase_of_note (h : (s.port p).action = .note) : lossPhase p s = s := by
  rw [lossPhase, h]

theorem lossPhase_of_safe (h : (s.port p).action = .safe) (hu : s.line.phase ≠ .unconfigured) :
    lossPhase p s = phaseWrite .safe .portLoss s := by
  rw [lossPhase, h]
  exact enterSafe_of_configured hu _

theorem lossPhase_of_printing (h : (s.port p).action = .limit) (hp : p = .line)
    (hph : s.line.phase = .printing) : lossPhase p s = enterDraining .lineLost s := by
  rw [lossPhase, h]
  exact if_pos ⟨hp, hph⟩

theorem lossPhase_of_limit (h : (s.port p).action = .limit)
    (hp : p ≠ .line ∨ s.line.phase ≠ .printing) : lossPhase p s = s := by
  rw [lossPhase, h]
  exact if_neg fun hboth => hp.elim (· hboth.1) (· hboth.2)

end

/-- The end of PRINTING without a drain is told from the phase unit and the log. -/
theorem DrainEndsAtOnce.of_line {c : Cause} {s b t u : State} (h : DrainEndsAtOnce c s b t)
    (hline : u.line = t.line) (hlog : u.log = t.log) : DrainEndsAtOnce c s b u := by
  rw [DrainEndsAtOnce, hline, hlog]
  exact h

theorem exec_windowTimerExpiry_running {p : Port} {s : State} (h : (s.port p).window.isSome)
    (hl : (s.port p).live = .active) : exec (.windowTimerExpiry p) s = .next (portLoss p s) := by
  obtain ⟨n, hn⟩ := Option.isSome_iff_exists.mp h
  show execWindowTimerExpiry p s = _
  rw [execWindowTimerExpiry, windowExpiry, hn, hl]

/-- What the loss of a port leaves in every block but the phase unit (R145, R173). -/
theorem portLoss_keeps (p : Port) (s : State) :
    KeepsPlant (portLost p s) (portLoss p s) ∧ KeepsPending (portLost p s) (portLoss p s) ∧
      ∀ key, Standing (portLoss p s) key → keyOwner key ≠ p := by
  have hphase := lossPhase_evolves p (portLost p s)
  rw [portLoss_eq]
  refine ⟨hphase.keeps.trans (madeKnown_frame _),
    (KeepsPending.of_evolves hphase).trans (madeKnown_keepsPending _), fun key hkey => ?_⟩
  have hlost := lossPhase_standing (madeKnown_standing hkey)
  rw [Standing, portLost_arb] at hlost
  exact ownerLoss_standing hlost

/-- Settles O50: a frame's arrival by the port's liveness; a loss block by block, its phase part by the loss
action. -/
theorem portLiveness : Obligations.PortLiveness := by
  intro p s
  refine ⟨fun h => (frameTaken_eq p s).trans (if_neg h), fun h => ?_, fun h => ?_, fun hrun hlive => ?_⟩
  · have hu := (frameTaken_eq p s).trans (if_pos h)
    have hframe := (Evolves.append (.port p true (s.port p).action) (heard p s)).keeps.trans
      (madeKnown_frame (logAppend (.port p true (s.port p).action) (heard p s)))
    have hlink : ((arbiterPass (recompute (setFloorDuty
        (logAppend (.port p true (s.port p).action) (heard p s))))).port p).link =
          ((heard p s).port p).link := hframe.link p
    have hport : (heard p s).port p =
        { s.port p with
          rx := .hunt, gap := none, live := .active, window := some (s.windowMs p * 1000) } :=
      modPort_port_same s p _
    rw [hport] at hlink
    obtain ⟨henv, hduty⟩ :=
      madeKnown_current (logAppend (.port p true (s.port p).action) (heard p s))
    dsimp only
    rw [hu]
    refine ⟨congrArg PortState.live hlink, congrArg PortState.window hlink,
      congrArg PortState.rx hlink, congrArg PortState.gap hlink, hduty, henv, fun hl => ?_⟩
    obtain ⟨-, -, -, -, -, -, aline, -, aarb, -⟩ :=
      logAppend_frame (.port p true (s.port p).action) (heard p s)
    obtain ⟨kline, karb, klog⟩ := madeKnown_of_empty
      (s := logAppend (.port p true (s.port p).action) (heard p s)) (by rw [aarb]; exact hl)
    exact ⟨klog.trans (logAppend_log_congr _ rfl rfl), kline.trans aline, karb.trans aarb⟩
  · show execWindowTimerExpiry p s = _
    rw [execWindowTimerExpiry, windowExpiry, h]
  · obtain ⟨hframe, hpending, hstanding⟩ := portLoss_keeps p s
    obtain ⟨hline, hring, hload, hmotion, htime, -, hholder, hlog⟩ := portLost_keeps p s
    obtain ⟨hready, hdrain⟩ := portLost_tests p s
    have haction := portLost_action p s
    have hlink := fun q => (hframe.link q).trans (portLost_link p s q)
    have hlinkp := hlink p
    rw [if_pos rfl] at hlinkp
    obtain ⟨henv, hduty⟩ := madeKnown_current (lossPhase p (portLost p s))
    rw [← portLoss_eq] at henv hduty
    refine ⟨_, exec_windowTimerExpiry_running hrun hlive, congrArg PortState.live hlinkp,
      congrArg PortState.window hlinkp, fun q hq => ⟨?_, ?_⟩,
      fun e he => hstanding _ (.inl ⟨e, he, rfl⟩), fun c hc => hstanding _ (.inr ⟨c, hc, rfl⟩),
      fun h => hpending _ _ (portLost_changeDone p s h), ?_, hduty, henv, hframe.ring.trans hring,
      ?_, hframe.motion.trans hmotion, fun ha hown => ?_, fun ha hu => ?_, fun ha hp hph hd => ?_,
      fun ha hp hph hd hown => ?_, fun ha hp hown => ?_⟩
    · have h := hlink q
      rw [if_neg hq] at h
      have hlive := congrArg PortState.live h
      exact hlive
    · exact hpending _ _ (portLost_noticed p s hq)
    · rw [hframe.prof, hholder]
    · rw [hframe.flow, hload]
    · obtain ⟨kline, -, klog⟩ := madeKnown_of_empty (portLost_of_own p s hown)
      rw [portLoss_eq, lossPhase_of_note (haction.trans ha), kline, klog, ← ha]
      exact ⟨hline, hlog⟩
    · have hu' : (portLost p s).line.phase ≠ .unconfigured := by rw [hline]; exact hu
      have hsafe := phaseWrite_phase .safe .portLoss (portLost p s)
      have hchecked := madeKnown_rechecked (phaseWrite .safe .portLoss (portLost p s))
      rw [portLoss_eq, lossPhase_of_safe (haction.trans ha) hu']
      have huntested : (phaseWrite .safe .portLoss (portLost p s)).line.phase.tested = false := by
        rw [hsafe]
        rfl
      obtain ⟨kphase, kcause, -⟩ := hchecked.line huntested
      refine ⟨kphase.trans hsafe, fun hs => ?_⟩
      have hs' : (portLost p s).line.phase ≠ .safe := by rw [hline]; exact hs
      refine ⟨kcause.trans ?_, (hchecked.log huntested).trans ((phaseWrite_log hs').trans ?_)⟩
      · rw [phaseWrite_line hs']
        rfl
      · rw [hline, hmotion, ← ha]
        exact logAppend_log_congr _ hlog (htime.trans (logAppend_frame _ s).1.symm)
    · have hph' : (portLost p s).line.phase = .printing := by rw [hline]; exact hph
      have hd' : (portLost p s).drainNow ≠ 0 := by rw [hdrain]; exact hd
      obtain ⟨hphase, hcause, hcount⟩ := enterDraining_of_printed (c := .lineLost) hph' hd'
      have hchecked := madeKnown_rechecked (enterDraining .lineLost (portLost p s))
      obtain ⟨kphase, kcause, -⟩ := hchecked.line (by rw [hphase]; rfl)
      rw [portLoss_eq, lossPhase_of_printing (haction.trans ha) hp hph']
      exact ⟨kphase.trans hphase, kcause.trans hcause,
        hchecked.counts.2.2.1.trans (hcount.trans hdrain)⟩
    · have hph' : (portLost p s).line.phase = .printing := by rw [hline]; exact hph
      have hd' : (portLost p s).drainNow = 0 := by rw [hdrain]; exact hd
      have harb := enterDraining_arb_of_empty .lineLost (portLost_of_own p s hown)
      obtain ⟨kline, -, klog⟩ := madeKnown_of_empty
        (s := enterDraining .lineLost (portLost p s))
        ((congrArg Arbiter.list harb).trans (portLost_of_own p s hown))
      rw [portLoss_eq, lossPhase_of_printing (haction.trans ha) hp hph']
      refine ((enterDraining_atOnce hph' hd').congr hready ?_ ?_ ?_ ?_).of_line kline klog
      · rw [hline]
      · rw [hmotion]
      · rw [hlog, ha]
      · exact htime.trans (logAppend_frame _ s).1.symm
    · have hp' : p ≠ .line ∨ (portLost p s).line.phase ≠ .printing := by rw [hline]; exact hp
      obtain ⟨kline, -, -⟩ := madeKnown_of_empty (portLost_of_own p s hown)
      rw [portLoss_eq, lossPhase_of_limit (haction.trans ha) hp', kline]
      exact hline

end Sys2Proof.Machine
end

section
/-! PROOFS. RESTART (R196): the blocks set, one after another. -/
namespace Sys2Proof.Machine

/-! ### The parts of a restart -/

/-- The changes ended and the arrival numbers from 0 again (R146, R148). -/
def changesReset (s : State) : State := resetArrivals (abortChanges s)

theorem changesReset_frame (s : State) : ArbiterOnly s (changesReset s) := by
  simp [ArbiterOnly, changesReset, resetArrivals]

theorem changesReset_arb (s : State) :
    (changesReset s).arb.list = [] ∧ (changesReset s).arb.inFlight = none ∧
      (changesReset s).arb.arrival = 0 ∧ AbortedOutcomes s (changesReset s) ∧
      AbortNoticed s (changesReset s) := by
  obtain ⟨hlist, hflight⟩ := abortChanges_arb s
  exact ⟨hlist, hflight, rfl, (abortChanges_outcomes s).congr rfl rfl,
    (abortChanges_noticed s).congr rfl (.of_ports rfl)⟩

/-- The load unit and the phase unit restarted, the latches cleared. -/
def unitsRestarted (s : State) : State := clearLatches (restartLine (restartLoad s))

/-- The ring and the units after it. -/
def blocksRestarted (s : State) : State := unitsRestarted (restartRing (changesReset s))

/-- The envelope and the level conditions after it. -/
def restartSettled (s : State) : State :=
  evalLoadConditions (recompute (setIdle false (blocksRestarted s)))

theorem restartAll_eq (p : Port) (s : State) :
    restartAll p s = restartPorts (restartLog p (restartSettled s)) := rfl

theorem restartRing_frame (s : State) :
    (restartRing s).line = s.line ∧ (restartRing s).arb = s.arb ∧ (restartRing s).load = s.load ∧
      (restartRing s).brk = s.brk ∧ (restartRing s).motion = s.motion ∧
      (restartRing s).prof = s.prof ∧ (restartRing s).time = s.time ∧
      (restartRing s).log = s.log ∧ (restartRing s).ports = s.ports ∧
      (restartRing s).ring.charge = s.ring.charge ∧ (restartRing s).ring.tag = s.ring.tag ∧
      (restartRing s).ring.lastKind = .none := by
  unfold restartRing
  split <;> exact ⟨rfl, rfl, rfl, rfl, rfl, rfl, rfl, rfl, rfl, rfl, rfl, rfl⟩

theorem restartRing_of_committed {s : State} {pr : Profile} (h : s.prof.committed = some pr) :
    (restartRing s).ring = rebuildRing pr s.ring := by
  rw [restartRing, h]
  rfl

theorem restartRing_of_uncommitted {s : State} (h : s.prof.committed = none) :
    (restartRing s).ring.records = [] := by
  rw [restartRing, h]
  rfl

section
variable (s : State)

theorem unitsRestarted_frame :
    (unitsRestarted s).ring = s.ring ∧ (unitsRestarted s).arb = s.arb ∧
      (unitsRestarted s).motion = s.motion ∧ (unitsRestarted s).prof = s.prof ∧
      (unitsRestarted s).time = s.time ∧ (unitsRestarted s).log = s.log ∧
      (unitsRestarted s).ports = s.ports := ⟨rfl, rfl, rfl, rfl, rfl, rfl, rfl⟩

theorem unitsRestarted_det (d : Detector) :
    (unitsRestarted s).det d = { s.det d with latch := false } := by
  change (PerDetector.of (fun x => { s.brk.dets.get x with latch := false })).get d = _
  rw [PerDetector.get_of]
  rfl

theorem unitsRestarted_load :
    (unitsRestarted s).load =
      { clearLoads s.prof.committed s.load with
        floorDuty := (unitsRestarted s).load.floorDuty } := rfl

theorem unitsRestarted_line :
    (unitsRestarted s).line =
      { s.line with
        fill := 0, drain := 0, run := none, mark := 0, ready := .fails, stallGrace := none,
        excess := none, purgeVolume := 0, purgeTimer := none,
        speedGrant :=
          match s.prof.committed with
          | some pr => pr.crawlLimit
          | none => 0 } := rfl

/-- The floor duty is set before the phase unit's counts, which do not feed it. -/
theorem unitsRestarted_dutyCurrent : DutyCurrent (unitsRestarted s) :=
  (setFloorDuty_dutyCurrent _).congr rfl rfl rfl rfl rfl

/-- The blocks after the restart's first parts. -/
theorem blocksRestarted_keeps :
    (blocksRestarted s).ring = (restartRing (changesReset s)).ring ∧
      (blocksRestarted s).arb = (changesReset s).arb ∧ (blocksRestarted s).motion = s.motion ∧
      (blocksRestarted s).prof = s.prof ∧ (blocksRestarted s).time = s.time ∧
      (blocksRestarted s).log = s.log ∧
      (∀ d, (blocksRestarted s).det d = { s.det d with latch := false }) ∧
      ∀ q, ((blocksRestarted s).port q).link = (s.port q).link := by
  obtain ⟨-, harb, -, hbrk, hmotion, hprof, htime, hlog, hports, -⟩ :=
    restartRing_frame (changesReset s)
  obtain ⟨ctime, cmotion, -, -, -, -, -, cbrk, clog, cprof, -, -, clink⟩ := changesReset_frame s
  obtain ⟨uring, uarb, umotion, uprof, utime, ulog, uports⟩ :=
    unitsRestarted_frame (restartRing (changesReset s))
  refine ⟨uring, uarb.trans harb, umotion.trans (hmotion.trans cmotion),
    uprof.trans (hprof.trans cprof), utime.trans (htime.trans ctime), ulog.trans (hlog.trans clog),
    fun d => ?_, fun q => ?_⟩
  · have hdet : (restartRing (changesReset s)).det d = s.det d :=
      congrArg (fun b => b.dets.get d) (hbrk.trans cbrk)
    rw [blocksRestarted, unitsRestarted_det, hdet]
  · have hport : (blocksRestarted s).port q = (changesReset s).port q :=
      congrArg (PerPort.get · q) (uports.trans hports)
    rw [hport, clink]

theorem blocksRestarted_load :
    (blocksRestarted s).load.flow = s.load.flow ∧ (blocksRestarted s).load.peak = 0 ∧
      (blocksRestarted s).load.tripCount = 0 ∧ (blocksRestarted s).load.fReq = 0 ∧
      (blocksRestarted s).load.baseDuty = 0 ∧
      (∀ pr, s.prof.committed = some pr →
        (blocksRestarted s).load.loads = List.replicate pr.dryers.length 0) ∧
      (s.prof.committed = none → (blocksRestarted s).load.loads = []) := by
  obtain ⟨-, -, hload, -, -, hprof, -⟩ := restartRing_frame (changesReset s)
  obtain ⟨-, -, -, cload, -, -, -, -, -, cprof, -⟩ := changesReset_frame s
  rw [blocksRestarted, unitsRestarted_load, hload, hprof, cprof, cload]
  refine ⟨rfl, rfl, rfl, rfl, rfl, fun pr h => ?_, fun h => ?_⟩ <;> rw [h] <;> rfl

theorem blocksRestarted_line :
    (blocksRestarted s).line =
      { s.line with
        fill := 0, drain := 0, run := none, mark := 0, ready := .fails, stallGrace := none,
        excess := none, purgeVolume := 0, purgeTimer := none,
        speedGrant :=
          match s.prof.committed with
          | some pr => pr.crawlLimit
          | none => 0 } := by
  obtain ⟨hline, -, -, -, -, hprof, -⟩ := restartRing_frame (changesReset s)
  obtain ⟨-, -, -, -, -, -, cline, -, -, cprof, -⟩ := changesReset_frame s
  rw [blocksRestarted, unitsRestarted_line, hline, hprof, cline, cprof]

theorem blocksRestarted_dutyCurrent : DutyCurrent (blocksRestarted s) :=
  unitsRestarted_dutyCurrent _

/-- The conditions and the envelope leave the rest as the blocks hold it. -/
theorem restartSettled_frame : KeepsPlant (blocksRestarted s) (restartSettled s) := by
  have hcomputed : KeepsPlant (blocksRestarted s)
      (recompute (setIdle false (blocksRestarted s))) := by simp [KeepsPlant]
  exact hcomputed.trans (evalLoadConditions_keeps _)

theorem evalLoadConditions_notices : NoticesOnly s (evalLoadConditions s) := by
  unfold evalLoadConditions
  split <;> simp [NoticesOnly]

theorem restartSettled_keeps :
    (restartSettled s).line = (blocksRestarted s).line ∧
      (restartSettled s).arb = (blocksRestarted s).arb ∧
      (restartSettled s).brk = (blocksRestarted s).brk ∧
      (restartSettled s).load = (blocksRestarted s).load ∧
      (restartSettled s).log = (blocksRestarted s).log ∧
      (restartSettled s).env.idle = false ∧ EnvelopeCurrent (restartSettled s) ∧
      DutyCurrent (restartSettled s) := by
  have hnotices := evalLoadConditions_notices (recompute (setIdle false (blocksRestarted s)))
  obtain ⟨-, -, -, nload, -, nenv, nline, nbrk, narb, nlog, -⟩ := hnotices
  have hcurrent : KeepsCurrent (recompute (setIdle false (blocksRestarted s)))
      (restartSettled s) := .of_frame (evalLoadConditions_keeps _) nline nenv nload
  refine ⟨nline.trans (by simp), narb.trans (by simp), nbrk.trans (by simp), nload.trans (by simp),
    nlog.trans (by simp), ?_, hcurrent.env (recompute_envelopeCurrent _),
    hcurrent.duty (recompute_dutyCurrent
      (setIdle_dutyCurrent false (blocksRestarted_dutyCurrent s)))⟩
  exact (congrArg Envelope.idle nenv).trans (by simp)

end

/-! ### The log emptied (R162) -/

/-- The log with nothing in it. -/
def emptyLog : TransitLog where
  records := []
  unread := { line := 0, dryer := 0, chill := 0 }
  skip := { line := 0, dryer := 0, chill := 0 }
  freeze := .opened
  drops := 0

theorem restartLog_eq (p : Port) (s : State) :
    restartLog p s =
      logAppend (.restart p s.log.records.length s.log.drops)
        (evalWatermarks (s.setLog emptyLog)) := rfl

theorem restartLog_log (p : Port) (s : State) :
    (restartLog p s).log =
      { records :=
          [{ body := .restart p s.log.records.length s.log.drops, stamp := s.time.ms }],
        unread := { line := 1, dryer := 1, chill := 1 },
        skip := { line := 0, dryer := 0, chill := 0 }, freeze := .opened, drops := 0 } := by
  have hopened : (evalWatermarks (s.setLog emptyLog)).log.freeze = .opened := rfl
  rw [restartLog_eq, logAppend_opened hopened]
  rfl

theorem restartLog_frame (p : Port) (s : State) : LogOnly s (restartLog p s) := by
  rw [restartLog_eq]
  simp [LogOnly]

/-- The pending sets emptied but for the conditions that hold (R182). -/
theorem restartPorts_port (s : State) (q : Port) :
    ((restartPorts s).port q).link = (s.port q).link ∧
      ((restartPorts s).port q).pendingSet = ((restartPorts s).port q).holding := by
  have hport : (restartPorts s).port q = (s.port q).emptyPending := by simp [restartPorts]
  rw [hport]
  exact ⟨emptyPending_link _, by simp [PortState.emptyPending]⟩

theorem restartPorts_frame (s : State) : NoticesOnly s (restartPorts s) :=
  ⟨rfl, rfl, rfl, rfl, rfl, rfl, rfl, rfl, rfl, rfl, rfl, rfl, rfl,
    fun q => (restartPorts_port s q).1⟩

/-- What differs from a state in the log and the notices alone. -/
theorem LogOnly.keepsPlant {s t : State} (h : LogOnly s t) : KeepsPlant s t := by
  obtain ⟨htime, hmotion, hring, hload, hpwm, -, -, hbrk, -, hprof, hpending, hfree, hlink⟩ := h
  simp [KeepsPlant, htime, hmotion, hring, hload, hpwm, hbrk, hprof, hpending, hfree, hlink]

/-! ### The statement -/

/-- What a restart leaves of the state its parts made. -/
theorem restartAll_keeps (p : Port) (s : State) :
    KeepsPlant (blocksRestarted s) (restartAll p s) ∧
      (restartAll p s).line = (blocksRestarted s).line ∧
      (restartAll p s).arb = (blocksRestarted s).arb ∧
      (restartAll p s).brk = (blocksRestarted s).brk ∧
      (restartAll p s).load = (blocksRestarted s).load ∧
      (restartAll p s).env.idle = false ∧ EnvelopeCurrent (restartAll p s) ∧
      DutyCurrent (restartAll p s) := by
  obtain ⟨hline, harb, hbrk, hload, -, hidle, henv, hduty⟩ := restartSettled_keeps s
  have hlogged : LogOnly (restartSettled s) (restartAll p s) := by
    obtain ⟨ltime, lmotion, lring, lload, lpwm, lenv, lline, lbrk, larb, lprof, lpending, lfree,
      llink⟩ := restartLog_frame p (restartSettled s)
    obtain ⟨ptime, pmotion, pring, pload, ppwm, penv, pline, pbrk, parb, -, pprof, ppending, pfree,
      plink⟩ := restartPorts_frame (restartLog p (restartSettled s))
    exact ⟨ptime.trans ltime, pmotion.trans lmotion, pring.trans lring, pload.trans lload,
      ppwm.trans lpwm, penv.trans lenv, pline.trans lline, pbrk.trans lbrk, parb.trans larb,
      pprof.trans lprof, ppending.trans lpending, pfree.trans lfree,
      fun q => (plink q).trans (llink q)⟩
  have hframe := LogOnly.keepsPlant hlogged
  obtain ⟨-, -, -, kload, -, kenv, kline, kbrk, karb, -⟩ := hlogged
  have hcurrent : KeepsCurrent (restartSettled s) (restartAll p s) :=
    .of_frame hframe kline kenv kload
  exact ⟨(restartSettled_frame s).trans hframe, kline.trans hline, karb.trans harb,
    kbrk.trans hbrk, kload.trans hload, (congrArg Envelope.idle kenv).trans hidle,
    hcurrent.env henv, hcurrent.duty hduty⟩

theorem restartAll_log (p : Port) (s : State) :
    (restartAll p s).log =
      { records := [{ body := .restart p s.log.records.length s.log.drops, stamp := s.time.ms }],
        unread := { line := 1, dryer := 1, chill := 1 },
        skip := { line := 0, dryer := 0, chill := 0 }, freeze := .opened, drops := 0 } := by
  obtain ⟨-, -, -, -, htime, hlog, -⟩ := blocksRestarted_keeps s
  obtain ⟨-, -, -, -, klog, -⟩ := restartSettled_keeps s
  have hrestart := restartLog_log p (restartSettled s)
  obtain ⟨-, -, -, -, -, -, -, -, -, plog, -⟩ :=
    restartPorts_frame (restartLog p (restartSettled s))
  rw [klog, hlog, (restartSettled_frame s).time, htime] at hrestart
  rw [restartAll_eq, plog, hrestart]

theorem handleRestart_taken {p : Port} {u : State}
    (h : u.line.phase = .unconfigured ∨ u.line.phase = .cold) :
    handleRestart p [] u = .code (restartAll p u) .ok := if_pos h

theorem handleRestart_refused {p : Port} {u : State} (hu : u.line.phase ≠ .unconfigured)
    (hc : u.line.phase ≠ .cold) : handleRestart p [] u = .code u .refusedPhase :=
  if_neg fun h => h.elim hu hc

/-- Settles O59: the parts of a restart, block by block. -/
theorem restartClearsTheRun : Obligations.RestartClearsTheRun := by
  intro p s
  refine ⟨fun hu hc => ?_, fun h => ⟨restartAll p (frameTaken p s), ?_, ?_⟩⟩
  · exact exec_refuses (r := .restart) (code := .refusedPhase) rfl rfl (handleRestart_refused hu hc)
  · exact exec_answers (r := .restart) rfl rfl (handleRestart_taken h)
  · have hlog := restartAll_log p (frameTaken p s)
    generalize frameTaken p s = u at hlog ⊢
    obtain ⟨hframe, hline, harb, hbrk, hload, hidle, henv, hduty⟩ := restartAll_keeps p u
    obtain ⟨bring, barb, bmotion, bprof, btime, -, bdet, blink⟩ := blocksRestarted_keeps u
    obtain ⟨bflow, bpeak, btrip, breq, bduty, bloads, bnone⟩ := blocksRestarted_load u
    obtain ⟨hlist, hflight, harrival, hout, -⟩ := changesReset_arb u
    obtain ⟨-, -, -, -, -, -, -, -, -, rcharge, rtag, rkind⟩ := restartRing_frame (changesReset u)
    obtain ⟨-, -, cring, -, -, -, -, -, -, cprof, -⟩ := changesReset_frame u
    have kring : (restartAll p u).ring = (restartRing (changesReset u)).ring :=
      hframe.ring.trans bring
    have kline : (restartAll p u).line = _ := hline.trans (blocksRestarted_line u)
    have karb := harb.trans barb
    have kduty : (blocksRestarted u).load.floorDuty = floorDuty (restartAll p u) :=
      (congrArg Load.floorDuty hload).symm.trans hduty
    rw [karb, kring, hload, kline, hlog, hframe.motion, hframe.prof, hframe.time, bmotion, bprof,
      btime]
    refine ⟨hlist, hflight, harrival, hout.congr rfl (congrArg Arbiter.outcomes karb),
      fun pr hc => ?_, fun hc => ?_, rkind, rcharge.trans (congrArg Ring.charge cring),
      rtag.trans (congrArg Ring.tag cring), bflow, bpeak, btrip, breq, bduty, kduty, henv, hidle,
      rfl, rfl, rfl, rfl, rfl, rfl, rfl, rfl, rfl, rfl, fun d => ?_, rfl, rfl, rfl, rfl,
      fun q => ⟨?_, ?_⟩⟩
    · rw [restartRing_of_committed (cprof ▸ hc), hc, cring]
      exact ⟨rfl, rfl, rfl, rfl, bloads pr hc, rfl⟩
    · rw [hc]
      exact ⟨restartRing_of_uncommitted (cprof ▸ hc), bnone hc, rfl⟩
    · rw [State.det, hbrk]
      exact bdet d
    · exact (hframe.link q).trans (blink q)
    · exact (restartPorts_port (restartLog p (restartSettled u)) q).2

end Sys2Proof.Machine
end

section
/-! PROOFS. The reports of the zones and the rolls (R4, R5, R44, R48, R78, R86, R140). -/
namespace Sys2Proof.Machine

/-! ### ZONE_HIGH is raised by a report alone (R78) -/

/-- ZONE_HIGH is pending as it was. -/
def KeepsZoneHigh (s t : State) : Prop :=
  ∀ q, Notice.zoneHigh.inSet (t.port q).pendingSet = Notice.zoneHigh.inSet (s.port q).pendingSet

namespace KeepsZoneHigh

variable {s t u : State}

theorem refl (s : State) : KeepsZoneHigh s s := fun _ => rfl

theorem trans (h : KeepsZoneHigh s t) (k : KeepsZoneHigh t u) : KeepsZoneHigh s u :=
  fun q => (k q).trans (h q)

/-- An operation that leaves the ports, before one that keeps the kind. -/
theorem after_ports (k : KeepsZoneHigh t u) (h : t.ports = s.ports) : KeepsZoneHigh s u := by
  intro q
  have hq : t.port q = s.port q := by simp [State.port, h]
  exact hq ▸ k q

theorem of_ports (h : t.ports = s.ports) : KeepsZoneHigh s t := (refl t).after_ports h

theorem raiseAt {k : Notice} (hk : .zoneHigh ≠ k) (p : Port) (s : State) :
    KeepsZoneHigh s (raiseAt k p s) := by
  intro q
  unfold Machine.raiseAt
  rw [modPort_port]
  split
  · next h => subst h; simp [hk, State.port]
  · rfl

theorem raiseAll {k : Notice} (hk : .zoneHigh ≠ k) (s : State) :
    KeepsZoneHigh s (raiseAll k s) := by
  intro q
  simp [Machine.raiseAll, hk]

theorem setConditionAll {k : Notice} (hk : .zoneHigh ≠ k) (b : Bool) (s : State) :
    KeepsZoneHigh s (setConditionAll k b s) := by
  intro q
  simp [Machine.setConditionAll, hk]

theorem logAppend (b : LogBody) (s : State) : KeepsZoneHigh s (logAppend b s) := by
  have hskips : KeepsZoneHigh s (raiseSkips s) := by
    intro q
    simp only [raiseSkips, setPorts_port, PerPort.get_of]
    split
    · simp [State.port]
    · rfl
  have hmarks : ∀ v : State, KeepsZoneHigh v (evalWatermarks v) := by
    intro v q
    simp [evalWatermarks, State.port]
  have hplace : KeepsZoneHigh s (logPlace b s) := hskips.trans ((hmarks _).after_ports rfl)
  unfold Machine.logAppend
  split
  · exact of_ports rfl
  · exact hplace
  · dsimp only
    split
    · exact hplace.trans ((raiseAll (by decide) _).after_ports rfl)
    · exact hplace.trans (of_ports rfl)

theorem recompute (s : State) : KeepsZoneHigh s (recompute s) := by
  rw [recompute_eq]
  refine .trans ?_ (setConditionAll (by decide) _ _)
  split
  · exact (raiseAll (by decide) _).after_ports rfl
  · exact of_ports rfl

theorem evalLoadConditions (s : State) : KeepsZoneHigh s (evalLoadConditions s) := by
  unfold Machine.evalLoadConditions
  split
  · exact (setConditionAll (by decide) _ _).trans (setConditionAll (by decide) _ _)
  · exact (setConditionAll (by decide) _ _).trans (setConditionAll (by decide) _ _)

theorem storeOutcome (o : ChangeOutcome) (s : State) : KeepsZoneHigh s (storeOutcome o s) :=
  (raiseAt (by decide) _ _).after_ports rfl

theorem endInFlight (r : EndReason) (s : State) : KeepsZoneHigh s (endInFlight r s) := by
  unfold Machine.endInFlight
  split
  · exact refl s
  · exact (storeOutcome _ _).after_ports rfl

theorem storeEnds (r : EndReason) (l : List PendingEntry) (s : State) :
    KeepsZoneHigh s (storeEnds r l s) := by
  induction l generalizing s with
  | nil => exact refl s
  | cons e l ih => exact (storeOutcome _ _).trans (ih _)

theorem endPending (f : PendingEntry → Bool) (r : EndReason) (s : State) :
    KeepsZoneHigh s (endPending f r s) := (storeEnds _ _ _).after_ports rfl

theorem arbiterPhaseChange (a b : Phase) (s : State) :
    KeepsZoneHigh s (arbiterPhaseChange a b s) := by
  unfold Machine.arbiterPhaseChange
  split
  · exact (endInFlight _ _).trans (endPending _ _ _)
  · split
    · exact of_ports rfl
    · split <;> exact of_ports rfl

theorem phaseWrite (p : Phase) (c : Cause) (s : State) : KeepsZoneHigh s (phaseWrite p c s) := by
  by_cases h : s.line.phase = p
  · rw [phaseWrite_same h]; exact refl s
  · have htaken : KeepsZoneHigh s (phaseTaken p c s) :=
      (logAppend _ s).trans ((raiseAll (by decide) _).trans ((recompute _).after_ports rfl))
    rw [phaseWrite_eq h]
    exact htaken.trans (arbiterPhaseChange _ _ _)

theorem enterHeating (c : Cause) (s : State) : KeepsZoneHigh s (enterHeating c s) := by
  have hheating := phaseWrite .heating c s
  unfold Machine.enterHeating
  dsimp only
  split
  · exact hheating.trans ((phaseWrite _ _ _).after_ports rfl)
  · exact hheating.trans (of_ports rfl)

theorem evaluateReady (s : State) : KeepsZoneHigh s (evaluateReady s) := by
  unfold Machine.evaluateReady
  dsimp only
  split
  · split
    · exact (phaseWrite _ _ _).after_ports rfl
    · exact of_ports rfl
  · split
    · exact of_ports rfl
    · exact (enterHeating _ _).after_ports rfl
  all_goals exact of_ports rfl

theorem writeRecord (key : ChangeKey) (v : Int) (s : State) :
    KeepsZoneHigh s (writeRecord key v s) := by
  have h : KeepsZoneHigh s (Machine.recompute (s.setLine (s.line.putRecord key v))) :=
    (recompute _).after_ports rfl
  cases key with
  | speed => exact h
  | exhaust => exact h
  | zone z => exact h.trans (evaluateReady _)
  | chill c => exact h.trans (evaluateReady _)

theorem arbiterPass (s : State) : KeepsZoneHigh s (arbiterPass s) := by
  rcases arbiterPass_cases s with heq | ⟨pr, c, -, -, -, heq⟩
  · rw [heq]; exact refl s
  · rw [heq]; exact (writeRecord _ _ _).after_ports rfl

theorem settleSpeed (pr : Profile) (c : InFlight) (s : State) :
    KeepsZoneHigh s (settleSpeed pr c s) := by
  have hend := (endInFlight .settled s).trans (arbiterPass _)
  unfold Machine.settleSpeed
  dsimp only
  split
  · exact hend
  · split
    · exact (writeRecord _ _ _).after_ports rfl
    · split
      · exact hend
      · exact (arbiterPass _).after_ports rfl

theorem settleObserve (o : Observation) (s : State) : KeepsZoneHigh s (settleObserve o s) := by
  unfold Machine.settleObserve
  split
  · split
    · dsimp only
      split
      · unfold settleChange
        split
        · exact (settleSpeed _ _ _).after_ports rfl
        · exact ((endInFlight _ _).trans (arbiterPass _)).after_ports rfl
      · exact of_ports rfl
    · exact of_ports rfl
    · exact refl s
  · exact refl s
  · exact refl s

end KeepsZoneHigh

/-! ### The blocks after a report (R86, R140) -/

/-- The passes, the ready test and the observation that follow a report. -/
def reportSettled (o : Observation) (s : State) : State :=
  settleObserve o (arbiterPass (evaluateReady (arbiterPass s)))

/-- The state a report's observation finds. -/
def reportTested (s : State) : State := arbiterPass (evaluateReady (arbiterPass s))

section
variable (o : Observation) (s : State)

theorem reportSettled_evolves : Evolves s (reportSettled o s) :=
  .trans (arbiterPass_evolves s) (.trans (evaluateReady_evolves _)
    (.trans (arbiterPass_evolves _) (settleObserve_evolves _ _)))

theorem reportSettled_rechecked : Rechecked s (reportSettled o s) :=
  (Rechecked.arbiterPass s).trans ((Rechecked.evaluateReady _).trans
    ((Rechecked.arbiterPass _).trans (.settleObserve o _)))

theorem reportSettled_current : KeepsCurrent s (reportSettled o s) :=
  (arbiterPass_current s).trans ((evaluateReady_current _).trans
    ((arbiterPass_current _).trans (settleObserve_current o _)))

theorem reportSettled_zoneHigh : KeepsZoneHigh s (reportSettled o s) :=
  (KeepsZoneHigh.arbiterPass s).trans ((KeepsZoneHigh.evaluateReady _).trans
    ((KeepsZoneHigh.arbiterPass _).trans (.settleObserve o _)))

end

/-- With a change in flight a pass grants nothing. -/
theorem arbiterPass_of_inFlight {s : State} {c : InFlight} (h : s.arb.inFlight = some c) :
    arbiterPass s = s := by
  unfold arbiterPass
  rw [h]
  split
  · next hnone => exact absurd hnone (by simp)
  · rfl
  · rfl

/-- Where both passes grant nothing, the ready test alone comes before the observation. -/
theorem reportTested_eq {s : State} (h : (∃ c, s.arb.inFlight = some c) ∨ s.arb.list = []) :
    reportTested s = evaluateReady s := by
  have harb := (evaluateReady_keeps s).1
  rw [reportTested]
  rcases h with ⟨c, hc⟩ | hl
  · rw [arbiterPass_of_inFlight hc,
      arbiterPass_of_inFlight ((congrArg Arbiter.inFlight harb).trans hc)]
  · rw [arbiterPass_of_empty hl,
      arbiterPass_of_empty ((congrArg Arbiter.list harb).trans hl)]

/-- What an observation goes by outlasts the ready test. -/
theorem observes_evaluateReady (pr : Profile) (s : State) (o : Observation) (key : ChangeKey) :
    observes pr (evaluateReady s) o key = observes pr s o key := by
  obtain ⟨-, hspeed, hexhaust, hpoints⟩ := evaluateReady_keeps s
  have hframe := (evaluateReady_evolves s).keeps
  have hpoint : ∀ z, (evaluateReady s).setpoint z = s.setpoint z := fun z =>
    congrArg (fun l : List Int => l.getD z 0) hpoints
  cases key <;>
    simp only [observes, hpoint, hspeed, hexhaust, hframe.motion, hframe.flow, hframe.ring]

/-- A change in flight, observed after the ready test; SPEED, which settles in increments, aside. -/
theorem reportSettled_observed {pr : Profile} {o : Observation} {s : State} {c : InFlight}
    (hp : s.prof.committed = some pr) (hc : s.arb.inFlight = some c)
    (hk : c.key = .speed → observes pr s o c.key = none) :
    Observed pr (observes pr s o c.key) c s (reportSettled o s) := by
  have harb := (evaluateReady_keeps s).1
  have hp' : (evaluateReady s).prof.committed = some pr := by
    rw [(evaluateReady_evolves s).keeps.prof]
    exact hp
  have hc' : (evaluateReady s).arb.inFlight = some c := (congrArg Arbiter.inFlight harb).trans hc
  have hsettled : reportSettled o s = settleObserve o (evaluateReady s) :=
    congrArg (settleObserve o) (reportTested_eq (.inl ⟨c, hc⟩))
  have hobs := observes_evaluateReady pr s o c.key
  rw [hsettled]
  refine ⟨fun h => ?_, fun h => ?_, fun h hlt => ?_, fun h hle => ?_⟩
  · rw [settleObserve_of_unseen hp' hc' (hobs.trans h), harb]
  · rw [settleObserve_of_outside hp' hc' (hobs.trans h), setArb_arb, harb]
  · rw [settleObserve_of_inside hp' hc' (hobs.trans h), harb, if_neg (by omega)]
    rw [inTolerance, setArb_arb, harb]
  · have hother : c.key ≠ .speed := fun hs => by simp [hk hs] at h
    have hflight : (inTolerance (evaluateReady s)).arb.inFlight = some c := hc'
    rw [settleObserve_of_inside hp' hc' (hobs.trans h), harb, if_pos hle,
      settleChange_of_other hother]
    refine ⟨?_, ?_⟩
    · rw [(arbiterPass_outcomes _).1]
      exact (endInFlight_outcomes hflight .settled _).trans (if_pos rfl)
    · exact KeepsPending.of_evolves (arbiterPass_evolves _) _ _
        (endInFlight_noticed hflight .settled)

/-- With nothing waiting a report that observes no SPEED change moves the phase by the ready test alone. -/
theorem reportSettled_phase {pr : Profile} {o : Observation} {s : State}
    (hp : s.prof.committed = some pr) (hl : s.arb.list = []) (ho : o ≠ .advance)
    (hs : s.line.phase.tested = true) :
    (reportSettled o s).line.phase = if readyTest pr (reportSettled o s) then .ready else .heating := by
  obtain ⟨harb, -, -, hpoints⟩ := evaluateReady_keeps s
  have hframe := (reportSettled_evolves o s).keeps
  have hline : (reportSettled o s).line = (evaluateReady s).line := by
    rw [reportSettled, ← reportTested, reportTested_eq (.inr hl)]
    cases hc : (evaluateReady s).arb.inFlight with
    | none => rw [settleObserve_of_flightless o hc]
    | some c =>
      have hp' : (evaluateReady s).prof.committed = some pr := by
        rw [(evaluateReady_evolves s).keeps.prof]
        exact hp
      cases hobs : observes pr (evaluateReady s) o c.key with
      | none => rw [settleObserve_of_unseen hp' hc hobs]
      | some b =>
        cases b with
        | false => rw [settleObserve_of_outside hp' hc hobs, setArb_line]
        | true =>
          have hother : c.key ≠ .speed := fun hk => by simp [hk, observes, ho] at hobs
          rw [settleObserve_of_inside hp' hc hobs]
          split
          · have hlist : (endInFlight .settled (inTolerance (evaluateReady s))).arb.list = [] := by
              rw [(endInFlight_arb _ _).2.1]
              exact (congrArg Arbiter.list harb).trans hl
            rw [settleChange_of_other hother, arbiterPass_of_empty hlist]
            obtain ⟨-, -, -, -, -, -, hend, -⟩ :=
              endInFlight_frame .settled (inTolerance (evaluateReady s))
            exact hend
          · rfl
  have hready : readyTest pr (reportSettled o s) = s.isReady := by
    rw [isReady_eq hp]
    simp only [readyTest, hline, hpoints, hframe.ring, hframe.flow]
  rw [hready, hline]
  exact evaluateReady_phase hs

/-! ### What a report writes (R4, R44) -/

theorem clampTemp_eq (v : Int) : clampTemp v = min (max v (-400)) 3500 := rfl

theorem clampTemp_ne_iff (v : Int) : clampTemp v ≠ v ↔ v < -400 ∨ 3500 < v := by
  rw [clampTemp_eq]
  omega

theorem anyClamped_iff (l : List Int) :
    anyClamped l = true ↔ ∃ v ∈ l, v < -400 ∨ 3500 < v := by
  simp only [anyClamped, List.any_eq_true, bne_iff_ne, clampTemp_ne_iff]

theorem reportResult_code (l : List Int) [Decidable (∃ v ∈ l, v < -400 ∨ 3500 < v)] :
    (reportResult l).code = if ∃ v ∈ l, v < -400 ∨ 3500 < v then 0x01 else 0x00 := by
  rw [reportResult]
  by_cases h : ∃ v ∈ l, v < -400 ∨ 3500 < v
  · rw [if_pos ((anyClamped_iff l).mpr h), if_pos h]
    rfl
  · rw [if_neg (fun hc => h ((anyClamped_iff l).mp hc)), if_neg h]
    rfl

/-- Some zone's air exceeds its cap plus TOL, zone by zone (R78). -/
theorem zoneTooHigh_iff (es : List ZoneItems) (caps inputs : List Int) :
    zoneTooHigh es caps inputs = true ↔
      ∃ (z : Nat) (e : ZoneItems) (cap a : Int), es[z]? = some e ∧ caps[z]? = some cap ∧
        inputs[z]? = some a ∧ cap + e.tol < a := by
  induction es generalizing caps inputs with
  | nil => simp [zoneTooHigh]
  | cons e es ih =>
    cases caps with
    | nil => simp [zoneTooHigh]
    | cons cap caps =>
      cases inputs with
      | nil => simp [zoneTooHigh]
      | cons a inputs =>
        rw [zoneTooHigh, Bool.or_eq_true, decide_eq_true_iff, ih]
        constructor
        · rintro (h | ⟨z, x, k, b, hx, hk, hb, h⟩)
          · exact ⟨0, e, cap, a, rfl, rfl, rfl, h⟩
          · exact ⟨z + 1, x, k, b, hx, hk, hb, h⟩
        · rintro ⟨z, x, k, b, hx, hk, hb, h⟩
          cases z with
          | zero =>
            obtain rfl := Option.some.inj hx
            obtain rfl := Option.some.inj hk
            obtain rfl := Option.some.inj hb
            exact .inl h
          | succ z => exact .inr ⟨z, x, k, b, hx, hk, hb, h⟩

/-- The two load conditions follow the peak (R49). -/
theorem evalLoadConditions_levels {pr : Profile} {s : State} (h : s.prof.committed = some pr) :
    LevelBecomes .loadWarn (decide (pr.loadWarn ≤ s.load.peak)) s (evalLoadConditions s) ∧
      LevelBecomes .loadTrip (decide (pr.loadTrip ≤ s.load.peak)) s (evalLoadConditions s) := by
  rw [evalLoadConditions_of_committed h]
  exact ⟨(setConditionAll_becomes .loadWarn _ s).keepsLevel
      (setConditionAll_keepsLevel (by decide) _ _),
    .of_keepsLevel (setConditionAll_keepsLevel (by decide) _ _)
      (setConditionAll_becomes .loadTrip _ _)⟩

/-- The zone inputs a ZONE_REPORT writes. -/
def zoneInputs (pr : Profile) (values : List Int) (s : State) : List Int :=
  values.map clampTemp ++ s.ring.inputs.drop pr.dryers.length

/-- A ZONE_REPORT's inputs and flow written, loads and conditions formed anew (R44, R48, R49). -/
def zonesBooked (pr : Profile) (flow : Nat) (values : List Int) (s : State) : State :=
  let inputs := s.setRing { s.ring with inputs := zoneInputs pr values s }
  evalLoadConditions (inputs.setLoad (loadsOf pr inputs.ring flow inputs.load))

/-- The floor duty and the envelope after it. -/
def zonesTaken (pr : Profile) (flow : Nat) (values : List Int) (s : State) : State :=
  recompute (setFloorDuty (zonesBooked pr flow values s))

theorem takeZoneReport_eq (pr : Profile) (flow : Nat) (values : List Int) (s : State) :
    takeZoneReport pr flow values s =
      reportSettled .zoneReport (reportZoneHigh pr (zonesTaken pr flow values s)) := rfl

section
variable (pr : Profile) (flow : Nat) (values : List Int) (s : State)

theorem zonesBooked_notices :
    NoticesOnly
      ((s.setRing { s.ring with inputs := zoneInputs pr values s }).setLoad
        (loadsOf pr { s.ring with inputs := zoneInputs pr values s } flow s.load))
      (zonesBooked pr flow values s) :=
  evalLoadConditions_notices _

/-- What a ZONE_REPORT leaves before the envelope's notices and the ready test. -/
theorem zonesTaken_keeps :
    (zonesTaken pr flow values s).ring = { s.ring with inputs := zoneInputs pr values s } ∧
      (zonesTaken pr flow values s).line = s.line ∧ (zonesTaken pr flow values s).arb = s.arb ∧
      (zonesTaken pr flow values s).motion = s.motion ∧
      (zonesTaken pr flow values s).prof = s.prof ∧ (zonesTaken pr flow values s).brk = s.brk ∧
      (zonesTaken pr flow values s).load.flow = flow ∧
      (zonesTaken pr flow values s).load.tripCount = s.load.tripCount ∧
      (zonesTaken pr flow values s).env.idle = s.env.idle := by
  obtain ⟨-, hmotion, hring, hload, -, henv, hline, hbrk, harb, -, hprof, -⟩ :=
    zonesBooked_notices pr flow values s
  simp [zonesTaken, hmotion, hring, hload, hline, hbrk, harb, hprof, henv, loadsOf]

theorem zonesTaken_current :
    EnvelopeCurrent (zonesTaken pr flow values s) ∧ DutyCurrent (zonesTaken pr flow values s) :=
  ⟨recompute_envelopeCurrent _, recompute_dutyCurrent (setFloorDuty_dutyCurrent _)⟩

theorem zonesTaken_frame : KeepsPlant (zonesBooked pr flow values s) (zonesTaken pr flow values s) :=
  (Evolves.trans (.duty _) (.recompute _)).keeps

theorem zonesTaken_published : LoadsPublished pr (zonesTaken pr flow values s) := by
  have hformed : LoadsPublished pr
      ((s.setRing { s.ring with inputs := zoneInputs pr values s }).setLoad
        (loadsOf pr { s.ring with inputs := zoneInputs pr values s } flow s.load)) :=
    ⟨rfl, rfl, rfl, rfl, rfl⟩
  exact (hformed.keeps (evalLoadConditions_keeps _)).keeps (zonesTaken_frame pr flow values s)

theorem zonesTaken_levels (hp : s.prof.committed = some pr) :
    LevelBecomes .loadWarn (decide (pr.loadWarn ≤ (zonesTaken pr flow values s).load.peak)) s
        (zonesTaken pr flow values s) ∧
      LevelBecomes .loadTrip (decide (pr.loadTrip ≤ (zonesTaken pr flow values s).load.peak)) s
        (zonesTaken pr flow values s) := by
  let loaded := (s.setRing { s.ring with inputs := zoneInputs pr values s }).setLoad
    (loadsOf pr { s.ring with inputs := zoneInputs pr values s } flow s.load)
  have hpeak : (zonesTaken pr flow values s).load.peak = loaded.load.peak :=
    (zonesTaken_frame pr flow values s).peak.trans (evalLoadConditions_keeps loaded).peak
  have hafter : KeepsLevels (zonesBooked pr flow values s) (zonesTaken pr flow values s) :=
    (Evolves.trans (.duty _) (.recompute _)).levels
  obtain ⟨hwarn, htrip⟩ := evalLoadConditions_levels (s := loaded) hp
  rw [hpeak]
  exact ⟨hwarn.keepsLevel (hafter.keepsLevel rfl), htrip.keepsLevel (hafter.keepsLevel rfl)⟩

theorem zonesTaken_zoneHigh : KeepsZoneHigh s (zonesTaken pr flow values s) := by
  have hbooked : KeepsZoneHigh s (zonesBooked pr flow values s) :=
    (KeepsZoneHigh.evalLoadConditions _).after_ports rfl
  exact hbooked.trans ((KeepsZoneHigh.recompute _).after_ports rfl)

end

/-- ZONE_HIGH, told from the report's values (R73, R78). -/
def ReportsHigh (pr : Profile) (values : List Int) (s : State) : Prop :=
  s.line.phase.heated = true ∧
    ∃ (z : Nat) (e : ZoneItems) (v : Int), pr.dryers[z]? = some e ∧ values[z]? = some v ∧
      heatCap pr s.line.phase s.env.idle e + e.tol < min (max v (-400)) 3500

theorem zonesTaken_high {pr : Profile} {flow : Nat} {values : List Int} {s : State}
    (hp : s.prof.committed = some pr) (hlen : values.length = pr.dryers.length) :
    ((zonesTaken pr flow values s).line.phase.heated &&
        zoneTooHigh pr.dryers (zonesTaken pr flow values s).env.heatCaps
          (zonesTaken pr flow values s).ring.inputs) = true ↔ ReportsHigh pr values s := by
  obtain ⟨hring, hline, -, -, hprof, -, -, -, hidle⟩ := zonesTaken_keeps pr flow values s
  have hcaps : (zonesTaken pr flow values s).env.heatCaps =
      pr.dryers.map (heatCap pr s.line.phase s.env.idle) := by
    have henv : (zonesTaken pr flow values s).env = envelopeOf (zonesTaken pr flow values s) :=
      (zonesTaken_current pr flow values s).1
    rw [henv, envelopeOf_heatCaps (by rw [hprof]; exact hp), hline, hidle]
  rw [hcaps, hring, hline, Bool.and_eq_true, zoneTooHigh_iff]
  refine and_congr_right fun _ => ?_
  constructor
  · rintro ⟨z, e, cap, a, he, hcap, ha, h⟩
    have hz : z < values.length := hlen ▸ (List.getElem?_eq_some_iff.mp he).1
    rw [List.getElem?_map, he] at hcap
    obtain rfl := Option.some.inj hcap
    have hvalue : (zoneInputs pr values s)[z]? = some (clampTemp values[z]) := by
      rw [zoneInputs, List.getElem?_append_left (by simpa using hz), List.getElem?_map,
        List.getElem?_eq_getElem hz]
      rfl
    obtain rfl := Option.some.inj (hvalue.symm.trans ha)
    exact ⟨z, e, values[z], he, List.getElem?_eq_getElem hz, h⟩
  · rintro ⟨z, e, v, he, hv, h⟩
    have hz : z < values.length := (List.getElem?_eq_some_iff.mp hv).1
    refine ⟨z, e, _, clampTemp v, he, ?_, ?_, h⟩
    · rw [List.getElem?_map, he]
      rfl
    · change (zoneInputs pr values s)[z]? = _
      rw [zoneInputs, List.getElem?_append_left (by simpa using hz), List.getElem?_map, hv]
      rfl

theorem reportZoneHigh_notices (pr : Profile) (s : State) : NoticesOnly s (reportZoneHigh pr s) := by
  unfold reportZoneHigh
  split
  · exact raiseAll_frame _ _
  · simp [NoticesOnly]

theorem reportZoneHigh_evolves (pr : Profile) (s : State) : Evolves s (reportZoneHigh pr s) := by
  unfold reportZoneHigh
  split
  · exact .raiseAll _ _ rfl
  · exact .refl s

/-! ### The statement -/

theorem handleZoneReport_uncommitted {pl : List Byte} {u : State} (h : u.prof.committed = none) :
    handleZoneReport .dryer pl u = .code u .refusedPhase := by
  simp only [handleZoneReport, h]

theorem handleChillReport_uncommitted {pl : List Byte} {u : State} (h : u.prof.committed = none) :
    handleChillReport .chill pl u = .code u .refusedPhase := by
  simp only [handleChillReport, h]

section
variable {pl : List Byte} {u : State} {pr : Profile} (hp : u.prof.committed = some pr)
include hp

theorem handleZoneReport_count (h : (signedValues (pl.drop 2)).length ≠ pr.dryers.length) :
    handleZoneReport .dryer pl u = .code u .refusedRange := by
  simp only [handleZoneReport, hp]
  exact if_neg h

theorem handleZoneReport_taken (h : (signedValues (pl.drop 2)).length = pr.dryers.length) :
    handleZoneReport .dryer pl u =
      .code (takeZoneReport pr (fieldAt pl 0 2) (signedValues (pl.drop 2)) u)
        (reportResult (signedValues (pl.drop 2))) := by
  simp only [handleZoneReport, hp]
  exact if_pos h

theorem handleChillReport_count (h : (signedValues pl).length ≠ pr.chills.length) :
    handleChillReport .chill pl u = .code u .refusedRange := by
  simp only [handleChillReport, hp]
  exact if_neg h

theorem handleChillReport_taken (h : (signedValues pl).length = pr.chills.length) :
    handleChillReport .chill pl u =
      .code (takeChillReport pr (signedValues pl) u) (reportResult (signedValues pl)) := by
  simp only [handleChillReport, hp]
  exact if_pos h

end

/-- What follows a report, for the change in flight and the phase (R86, R140). -/
theorem report_settles {pr : Profile} {o : Observation} {u s : State}
    (hp : s.prof.committed = some pr) (harb : s.arb = u.arb) (hline : s.line = u.line)
    (ho : o ≠ .advance) :
    (∀ c, u.arb.inFlight = some c →
      Observed pr (observes pr s o c.key) c u (reportSettled o s)) ∧
      (u.arb.list = [] →
        (u.line.phase = .heating ∨ u.line.phase = .ready →
          (reportSettled o s).line.phase =
            if readyTest pr (reportSettled o s) then .ready else .heating) ∧
        (u.line.phase ≠ .heating → u.line.phase ≠ .ready →
          (reportSettled o s).line.phase = u.line.phase)) := by
  refine ⟨fun c hc => ?_, fun hl => ⟨fun h => ?_, fun hh hr => ?_⟩⟩
  · have hspeed : c.key = .speed → observes pr s o c.key = none := fun hk => by
      rw [hk, observes, if_neg ho]
    have hobserved := reportSettled_observed (o := o) hp (harb ▸ hc) hspeed
    rw [Observed, harb] at hobserved
    exact hobserved
  · refine reportSettled_phase hp (harb ▸ hl) ho ?_
    rw [hline]
    exact (tested_iff _).mpr h
  · have huntested : s.line.phase.tested = false := by
      rw [hline]
      simp [Phase.tested, hh, hr]
    rw [((reportSettled_rechecked o s).line huntested).1, hline]

section
variable {u : State} {pr : Profile}

/-- What a ZONE_REPORT with a value for every DRYER zone leaves. -/
theorem takeZoneReport_keeps (hp : u.prof.committed = some pr) (flow : Nat) (values : List Int) :
    let t := takeZoneReport pr flow values u
    t.ring = { u.ring with inputs := zoneInputs pr values u } ∧ t.load.flow = flow ∧
      LoadsAgree pr t ∧ DemandAgrees pr t ∧ t.load.tripCount = u.load.tripCount ∧
      DutyCurrent t ∧ EnvelopeCurrent t ∧ t.motion = u.motion ∧ t.prof = u.prof ∧ t.brk = u.brk ∧
      LevelBecomes .loadWarn (decide (pr.loadWarn ≤ t.load.peak)) u t ∧
      LevelBecomes .loadTrip (decide (pr.loadTrip ≤ t.load.peak)) u t := by
  let z := zonesTaken pr flow values u
  let v := reportZoneHigh pr z
  obtain ⟨hring, -, -, hmotion, hprof, hbrk, hflow, htrip, -⟩ := zonesTaken_keeps pr flow values u
  obtain ⟨hwarn, htripped⟩ := zonesTaken_levels pr flow values u hp
  obtain ⟨henv, hduty⟩ := zonesTaken_current pr flow values u
  obtain ⟨-, -, -, nload, -, nenv, nline, nbrk, -⟩ := reportZoneHigh_notices pr z
  have hraised := reportZoneHigh_evolves pr z
  have hframe := hraised.keeps.trans (reportSettled_evolves .zoneReport v).keeps
  have hlevels := hraised.levels.trans (reportSettled_evolves .zoneReport v).levels
  have hcurrent : KeepsCurrent z (reportSettled .zoneReport v) :=
    .trans (.of_frame hraised.keeps nline nenv nload) (reportSettled_current .zoneReport v)
  have hpublished := (zonesTaken_published pr flow values u).keeps hframe
  dsimp only
  rw [takeZoneReport_eq, hframe.peak]
  exact ⟨hframe.ring.trans hring, hframe.flow.trans hflow, hpublished.loadsAgree,
    hpublished.demandAgrees, hframe.tripCount.trans htrip, hcurrent.duty hduty,
    hcurrent.env henv, hframe.motion.trans hmotion, hframe.prof.trans hprof,
    (reportSettled_rechecked .zoneReport v).brk.trans (nbrk.trans hbrk),
    hwarn.keepsLevel (hlevels.keepsLevel rfl), htripped.keepsLevel (hlevels.keepsLevel rfl)⟩

/-- ZONE_HIGH becomes pending at every port where the report is high, and stays as it was elsewhere. -/
theorem takeZoneReport_zoneHigh (hp : u.prof.committed = some pr) (flow : Nat) {values : List Int}
    (hlen : values.length = pr.dryers.length) :
    (ReportsHigh pr values u → ∀ q,
      Notice.zoneHigh.inSet ((takeZoneReport pr flow values u).port q).pendingSet = true) ∧
      (¬ReportsHigh pr values u → KeepsZoneHigh u (takeZoneReport pr flow values u)) := by
  have hhigh := zonesTaken_high (flow := flow) hp hlen
  have hkept := reportSettled_zoneHigh .zoneReport (reportZoneHigh pr (zonesTaken pr flow values u))
  refine ⟨fun h q => ?_, fun h => ?_⟩
  · have hraised : reportZoneHigh pr (zonesTaken pr flow values u) =
        raiseAll .zoneHigh (zonesTaken pr flow values u) := if_pos (hhigh.mpr h)
    rw [takeZoneReport_eq, hkept q, hraised]
    simp [raiseAll]
  · have hquiet : reportZoneHigh pr (zonesTaken pr flow values u) = zonesTaken pr flow values u :=
      if_neg (fun hc => h (hhigh.mp hc))
    rw [hquiet] at hkept
    rw [takeZoneReport_eq, hquiet]
    exact (zonesTaken_zoneHigh pr flow values u).trans hkept

/-- The change in flight and the phase after a ZONE_REPORT. -/
theorem takeZoneReport_settles (hp : u.prof.committed = some pr) (flow : Nat) (values : List Int) :
    let t := takeZoneReport pr flow values u
    let v := reportZoneHigh pr (zonesTaken pr flow values u)
    (∀ c, u.arb.inFlight = some c → Observed pr (observes pr v .zoneReport c.key) c u t) ∧
      (u.arb.list = [] →
        (u.line.phase = .heating ∨ u.line.phase = .ready →
          t.line.phase = if readyTest pr t then .ready else .heating) ∧
        (u.line.phase ≠ .heating → u.line.phase ≠ .ready → t.line.phase = u.line.phase)) := by
  obtain ⟨-, hline, harb, -, hprof, -⟩ := zonesTaken_keeps pr flow values u
  obtain ⟨-, -, -, -, -, -, nline, -, narb, -, nprof, -⟩ :=
    reportZoneHigh_notices pr (zonesTaken pr flow values u)
  refine report_settles ?_ (narb.trans harb) (nline.trans hline) (by decide)
  rw [nprof, hprof]
  exact hp

/-- A ZONE_REPORT's observation goes by the flow and the inputs it wrote. -/
theorem observes_zoneReport (hp : u.prof.committed = some pr) (flow : Nat) (values : List Int) :
    let t := takeZoneReport pr flow values u
    let v := reportZoneHigh pr (zonesTaken pr flow values u)
    observes pr v .zoneReport .exhaust =
        some (decide (((t.load.flow : Int) - u.line.exhaust).natAbs ≤ pr.flowTol)) ∧
      (∀ z e, pr.used[z]? = some e → observes pr v .zoneReport (.zone z) =
        some (decide ((t.ring.inputs.getD z 0 - u.line.setpoints.getD z 0).natAbs ≤ e.tol))) := by
  obtain ⟨hring, hflow, -⟩ := takeZoneReport_keeps hp flow values
  obtain ⟨kring, kline, -, -, -, -, kflow, -⟩ := zonesTaken_keeps pr flow values u
  obtain ⟨-, -, nring, nload, -, -, nline, -⟩ :=
    reportZoneHigh_notices pr (zonesTaken pr flow values u)
  have vflow := (congrArg Load.flow nload).trans kflow
  have vring := nring.trans kring
  have vline := nline.trans kline
  dsimp only
  refine ⟨?_, fun z e he => ?_⟩
  · rw [hflow, observes, if_pos rfl, vflow, vline]
    rfl
  · rw [hring, observes, if_pos rfl, State.setpoint, vring, vline, zoneOr_of_used he]
    rfl

/-- A CHILL_REPORT's inputs written and the envelope formed anew. -/
def rollsTaken (pr : Profile) (values : List Int) (s : State) : State :=
  recompute (s.setRing
    { s.ring with inputs := s.ring.inputs.take pr.dryers.length ++ values.map clampTemp })

theorem takeChillReport_eq (pr : Profile) (values : List Int) (s : State) :
    takeChillReport pr values s = reportSettled .chillReport (rollsTaken pr values s) := rfl

theorem rollsTaken_keeps (pr : Profile) (values : List Int) (s : State) :
    (rollsTaken pr values s).ring =
        { s.ring with inputs := s.ring.inputs.take pr.dryers.length ++ values.map clampTemp } ∧
      (rollsTaken pr values s).line = s.line ∧ (rollsTaken pr values s).arb = s.arb ∧
      (rollsTaken pr values s).motion = s.motion ∧ (rollsTaken pr values s).prof = s.prof ∧
      (rollsTaken pr values s).brk = s.brk ∧ (rollsTaken pr values s).load = s.load := by
  simp [rollsTaken]

/-- What a CHILL_REPORT with a value for every CHILL zone leaves. -/
theorem takeChillReport_keeps (values : List Int) :
    let t := takeChillReport pr values u
    t.ring =
        { u.ring with inputs := u.ring.inputs.take pr.dryers.length ++ values.map clampTemp } ∧
      t.load.flow = u.load.flow ∧ EnvelopeCurrent t ∧ t.motion = u.motion ∧ t.prof = u.prof ∧
      t.brk = u.brk := by
  obtain ⟨hring, -, -, hmotion, hprof, hbrk, hload⟩ := rollsTaken_keeps pr values u
  have hframe := (reportSettled_evolves .chillReport (rollsTaken pr values u)).keeps
  exact ⟨hframe.ring.trans hring, hframe.flow.trans (congrArg Load.flow hload),
    (reportSettled_current .chillReport _).env (recompute_envelopeCurrent _),
    hframe.motion.trans hmotion, hframe.prof.trans hprof,
    (reportSettled_rechecked .chillReport _).brk.trans hbrk⟩

/-- A CHILL_REPORT's observation goes by the inputs it wrote. -/
theorem observes_chillReport (values : List Int) {z : Nat} {e : ZoneItems}
    (he : pr.used[z]? = some e) :
    observes pr (rollsTaken pr values u) .chillReport (.chill z) =
      some (decide (((takeChillReport pr values u).ring.inputs.getD z 0 -
        u.line.setpoints.getD z 0).natAbs ≤ e.tol)) := by
  obtain ⟨hring, -⟩ := takeChillReport_keeps (u := u) (pr := pr) values
  obtain ⟨kring, kline, -⟩ := rollsTaken_keeps pr values u
  rw [hring, observes, if_pos rfl, State.setpoint, kring, kline, zoneOr_of_used he]
  rfl

end

/-- The reply of an accepted report. -/
theorem report_reply {p : Port} {k : Byte} {values : List Int} {t : State} :
    answer p k (codeOnly (reportResult values)) t =
      answer p k [if ∃ v ∈ values, v < -400 ∨ 3500 < v then 0x01 else 0x00] t := by
  rw [codeOnly, reportResult_code]

/-- Settles O60: the values written, the blocks formed anew, and what follows every report. -/
theorem reportsAreTaken : Obligations.ReportsAreTaken := by
  intro pl s
  refine ⟨fun hlen heven => ?_, fun heven => ?_⟩
  · have hfits : lengthFits .zoneReport pl.length = true := by
      simp [lengthFits, hlen, heven]
    refine ⟨fun hc => exec_refuses (r := .zoneReport) (code := .refusedPhase) rfl hfits
      (handleZoneReport_uncommitted hc), fun pr hc => ⟨fun h => exec_refuses (r := .zoneReport)
        (code := .refusedRange) rfl hfits (handleZoneReport_count hc h), fun h => ?_⟩⟩
    have hexec := (exec_answers (r := .zoneReport) rfl hfits (handleZoneReport_taken hc h)).trans
      (congrArg Host.Outcome.next report_reply)
    obtain ⟨hring, hflow, hloads, hdemand, htrip, hduty, henv, hmotion, hprof, hbrk, hwarn,
      htripped⟩ := takeZoneReport_keeps hc (fieldAt pl 0 2) (signedValues (pl.drop 2))
    obtain ⟨hobserved, hphase⟩ :=
      takeZoneReport_settles hc (fieldAt pl 0 2) (signedValues (pl.drop 2))
    obtain ⟨hexhaust, hzone⟩ := observes_zoneReport hc (fieldAt pl 0 2) (signedValues (pl.drop 2))
    obtain ⟨hhigh, hquiet⟩ := takeZoneReport_zoneHigh hc (fieldAt pl 0 2) h
    refine ⟨_, hexec, hring, hflow, hloads, hdemand, htrip, hduty, henv, hmotion, hprof, hbrk,
      hwarn, htripped, fun c hf => ⟨fun hk => ?_, fun z e hk he => ?_, fun hk => ?_⟩, hhigh, hquiet,
      hphase⟩ <;> have hseen := hobserved c hf
    · rwa [hk, hexhaust] at hseen
    · rwa [hk, hzone z e he] at hseen
    · rcases hk with hk | ⟨z, hk⟩ <;> rwa [hk] at hseen
  · have hfits : lengthFits .chillReport pl.length = true := by
      simp [lengthFits, heven]
    refine ⟨fun hc => exec_refuses (r := .chillReport) (code := .refusedPhase) rfl hfits
      (handleChillReport_uncommitted hc), fun pr hc => ⟨fun h => exec_refuses (r := .chillReport)
        (code := .refusedRange) rfl hfits (handleChillReport_count hc h), fun h => ?_⟩⟩
    have hexec := (exec_answers (r := .chillReport) rfl hfits (handleChillReport_taken hc h)).trans
      (congrArg Host.Outcome.next report_reply)
    obtain ⟨hring, hflow, henv, hmotion, hprof, hbrk⟩ :=
      takeChillReport_keeps (u := frameTaken .chill s) (pr := pr) (signedValues pl)
    obtain ⟨-, kline, karb, -, kprof, -⟩ := rollsTaken_keeps pr (signedValues pl) (frameTaken .chill s)
    obtain ⟨hobserved, hphase⟩ := report_settles (o := .chillReport) (u := frameTaken .chill s)
      (kprof ▸ hc) karb kline (by decide)
    refine ⟨_, hexec, hring, hflow, henv, hmotion, hprof, hbrk,
      fun c hf => ⟨fun z e hk he => ?_, fun hk => ?_⟩, hphase⟩ <;> have hseen := hobserved c hf
    · rwa [hk, observes_chillReport _ he] at hseen
    · rcases hk with hk | hk | ⟨z, hk⟩ <;> rwa [hk] at hseen

end Sys2Proof.Machine
end

section
/-! PROOFS. The item table (R190, R193): its rows block by block, what each reads and writes. -/
namespace Sys2Proof.Machine

/-! ### Blocks of rows -/

/-- The blocks of the item table: the plain items, and those of a zone, a detector and a port. -/
inductive ItemBlock where
  | plain
  | zone (z : Fin 8)
  | detector (d : Detector)
  | port (p : Port)
deriving DecidableEq

/-- Items 0x01 to 0x28. -/
def plainRows : List ItemRow := motionAndLoadRows ++ limitRows ++ timingAndFlowRows

namespace ItemBlock

/-- The rows of a block. -/
def rows : ItemBlock → List ItemRow
  | plain => plainRows
  | zone z => zoneRows z
  | detector d => detectorRows d
  | port p => portRows p

/-- The values R190 names for a block, in order of id. -/
def values : ItemBlock → Profile → List Int
  | plain, x => plainValues x
  | zone z, x => zoneValues (x.zoneAt z)
  | detector d, x => detectorValues (x.detectors.get d)
  | port p, x => portValues (x.ports.get p)

/-- The first id of a block. -/
def base : ItemBlock → Nat
  | plain => 0x01
  | zone z => 0x40 + 8 * z
  | detector d => 0x80 + 4 * detectorNumber d
  | port p => 0x90 + 4 * portItemNumber p

theorem rows_ids (b : ItemBlock) : b.rows.map (·.id) = List.range' b.base b.rows.length := by
  cases b with
  | plain => rfl
  | zone z => rfl
  | detector d => rfl
  | port p => rfl

theorem row_id {b : ItemBlock} {i : Nat} {r : ItemRow} (h : b.rows[i]? = some r) :
    r.id = b.base + i := by
  have hid : (b.rows.map (·.id))[i]? = some r.id := by rw [List.getElem?_map, h]; rfl
  rw [rows_ids] at hid
  obtain ⟨hi, hv⟩ := List.getElem?_eq_some_iff.mp hid
  rw [← hv, List.getElem_range', Nat.one_mul]

theorem mem_itemRows_iff (r : ItemRow) : r ∈ itemRows ↔ ∃ b : ItemBlock, r ∈ b.rows := by
  constructor
  · intro h
    simp only [itemRows, List.mem_append, or_assoc] at h
    rcases h with h | h | h | h | h | h | h | h | h | h | h | h | h | h | h | h | h | h
    case inl => exact ⟨plain, by simp [rows, plainRows, h]⟩
    case inr.inl => exact ⟨plain, by simp [rows, plainRows, h]⟩
    case inr.inr.inl => exact ⟨plain, by simp [rows, plainRows, h]⟩
    case inr.inr.inr.inl => exact ⟨zone 0, h⟩
    case inr.inr.inr.inr.inl => exact ⟨zone 1, h⟩
    case inr.inr.inr.inr.inr.inl => exact ⟨zone 2, h⟩
    case inr.inr.inr.inr.inr.inr.inl => exact ⟨zone 3, h⟩
    case inr.inr.inr.inr.inr.inr.inr.inl => exact ⟨zone 4, h⟩
    case inr.inr.inr.inr.inr.inr.inr.inr.inl => exact ⟨zone 5, h⟩
    case inr.inr.inr.inr.inr.inr.inr.inr.inr.inl => exact ⟨zone 6, h⟩
    case inr.inr.inr.inr.inr.inr.inr.inr.inr.inr.inl => exact ⟨zone 7, h⟩
    case inr.inr.inr.inr.inr.inr.inr.inr.inr.inr.inr.inl => exact ⟨detector .brk0, h⟩
    case inr.inr.inr.inr.inr.inr.inr.inr.inr.inr.inr.inr.inl => exact ⟨detector .brk1, h⟩
    case inr.inr.inr.inr.inr.inr.inr.inr.inr.inr.inr.inr.inr.inl => exact ⟨detector .brk2, h⟩
    case inr.inr.inr.inr.inr.inr.inr.inr.inr.inr.inr.inr.inr.inr.inl => exact ⟨detector .brk3, h⟩
    case inr.inr.inr.inr.inr.inr.inr.inr.inr.inr.inr.inr.inr.inr.inr.inl => exact ⟨port .line, h⟩
    case inr.inr.inr.inr.inr.inr.inr.inr.inr.inr.inr.inr.inr.inr.inr.inr.inl =>
      exact ⟨port .dryer, h⟩
    case inr.inr.inr.inr.inr.inr.inr.inr.inr.inr.inr.inr.inr.inr.inr.inr.inr =>
      exact ⟨port .chill, h⟩
  · rintro ⟨b, h⟩
    unfold itemRows
    simp only [List.mem_append, or_assoc]
    cases b with
    | plain =>
      simp only [rows, plainRows, List.mem_append, or_assoc] at h
      rcases h with h | h | h <;> simp [h]
    | zone z =>
      have h' : r ∈ zoneRows z := h
      fin_cases z <;> simp_all
    | detector d =>
      have h' : r ∈ detectorRows d := h
      cases d <;> simp_all
    | port p =>
      have h' : r ∈ portRows p := h
      cases p <;> simp_all

/-! ### What a row reads and writes -/

theorem zoneKindOf_number {v : Int} (hlo : 0 ≤ v) (hhi : v ≤ 2) :
    ((zoneKindOf v).number : Int) = v := by
  interval_cases v <;> rfl

theorem polarityOf_number {v : Int} (hlo : 0 ≤ v) (hhi : v ≤ 1) :
    ((polarityOf v).number : Int) = v := by
  interval_cases v <;> rfl

theorem rows_get (b : ItemBlock) (x : Profile) : b.rows.map (·.get x) = b.values x := by
  cases b with
  | plain => rfl
  | zone z =>
    simp only [rows, values, zoneRows, zoneValues, natRow, List.map]
    cases (x.zoneAt z).kind <;> rfl
  | detector d =>
    simp only [rows, values, detectorRows, detectorValues, natRow, List.map]
    cases (x.detectors.get d).polarity <;> cases (x.detectors.get d).armed <;> rfl
  | port p => rfl

theorem zoneAt_modZone_same {x : Profile} (hx : x.zones.length = 8) (z : Fin 8)
    (f : ZoneItems → ZoneItems) : (x.modZone z f).zoneAt z = f (x.zoneAt z) := by
  have hz : (z : Nat) < x.zones.length := by omega
  simp [Profile.modZone, Profile.zoneAt, hz]

theorem zoneAt_modZone_other (x : Profile) {z w : Fin 8} (h : w ≠ z)
    (f : ZoneItems → ZoneItems) : (x.modZone z f).zoneAt w = x.zoneAt w := by
  have hne : (z : Nat) ≠ w := fun e => h (Fin.ext e.symm)
  simp [Profile.modZone, Profile.zoneAt, hne]

/-- Of the plain items only AMBIENT and CHILL_READY take values below 0. -/
theorem plainRows_lo {i : Nat} {r : ItemRow} (hr : plainRows[i]? = some r) (h5 : i ≠ 5)
    (h38 : i ≠ 38) : 0 ≤ r.lo := by
  have hlen : i < 40 := (List.getElem?_eq_some_iff.mp hr).choose
  have hall : ∀ k < 40, k ≠ 5 → k ≠ 38 → 0 ≤ ((plainRows.map (·.lo))[k]?).getD 0 := by decide
  have hlo := hall i hlen h5 h38
  rwa [List.getElem?_map, hr] at hlo

/-- A write within a row's range sets the row's value in its block and no other value there. -/
theorem values_put_same {b : ItemBlock} {i : Nat} {r : ItemRow} (hr : b.rows[i]? = some r)
    {x : Profile} (hx : x.zones.length = 8) {v : Int} (hlo : r.lo ≤ v) (hhi : v ≤ r.hi) :
    b.values (r.put x v) = (b.values x).set i v := by
  obtain ⟨hi, hget⟩ := List.getElem?_eq_some_iff.mp hr
  subst hget
  cases b with
  | plain =>
    have hlen : i < 40 := hi
    cases v with
    | ofNat n => interval_cases i <;> rfl
    | negSucc n =>
      by_cases h5 : i = 5
      · subst h5
        rfl
      by_cases h38 : i = 38
      · subst h38
        rfl
      exact absurd (Int.le_trans (plainRows_lo hr h5 h38) hlo) (Int.negSucc_not_nonneg n).mp
  | zone z =>
    have hlen : i < 8 := hi
    rw [← rows_get, ← rows_get]
    interval_cases i <;>
      simp [rows, zoneRows, natRow, zoneAt_modZone_same hx] at hlo hhi ⊢
    · rw [max_eq_left hlo]
      exact zoneKindOf_number hlo hhi
    all_goals omega
  | detector d =>
    have hlen : i < 3 := hi
    rw [← rows_get, ← rows_get]
    interval_cases i <;>
      simp [rows, detectorRows, natRow] at hlo hhi ⊢
    · exact hlo
    · rw [max_eq_left hlo]
      exact polarityOf_number hlo hhi
    · split <;> omega
  | port p =>
    have hlen : i < 3 := hi
    interval_cases i <;>
      simp [rows, values, portRows, portValues, natRow] at hlo hhi ⊢ <;> omega

/-- A row's write leaves the values of the other blocks. -/
theorem values_put_other {b c : ItemBlock} {r : ItemRow} (hr : r ∈ b.rows) (hbc : c ≠ b)
    (x : Profile) (v : Int) : c.values (r.put x v) = c.values x := by
  obtain ⟨i, hi, hget⟩ := List.getElem_of_mem hr
  subst hget
  cases b with
  | plain =>
    have hlen : i < 40 := hi
    cases c with
    | plain => exact absurd rfl hbc
    | zone w => interval_cases i <;> rfl
    | detector e => interval_cases i <;> rfl
    | port q => interval_cases i <;> rfl
  | zone z =>
    have hlen : i < 8 := hi
    cases c with
    | plain => interval_cases i <;> rfl
    | zone w =>
      have hne : w ≠ z := fun e => hbc (congrArg ItemBlock.zone e)
      interval_cases i <;> exact congrArg zoneValues (zoneAt_modZone_other x hne _)
    | detector e => interval_cases i <;> rfl
    | port q => interval_cases i <;> rfl
  | detector d =>
    have hlen : i < 3 := hi
    cases c with
    | plain => interval_cases i <;> rfl
    | zone w => interval_cases i <;> rfl
    | detector e =>
      have hne : e ≠ d := fun h => hbc (congrArg ItemBlock.detector h)
      interval_cases i <;> exact congrArg detectorValues (PerDetector.get_set_other _ _ hne)
    | port q => interval_cases i <;> rfl
  | port p =>
    have hlen : i < 3 := hi
    cases c with
    | plain => interval_cases i <;> rfl
    | zone w => interval_cases i <;> rfl
    | detector e => interval_cases i <;> rfl
    | port q =>
      have hne : q ≠ p := fun h => hbc (congrArg ItemBlock.port h)
      interval_cases i <;> exact congrArg portValues (PerPort.get_set_other _ _ hne)

end ItemBlock
end Sys2Proof.Machine
end

section
/-! PROOFS. The item table as a whole (R190, R193): the row an id names, its value and its write. -/
namespace Sys2Proof.Machine

/-! ### The row of an id -/

theorem itemRows_ids_nodup : (itemRows.map (·.id)).Nodup := by decide +kernel

theorem itemRow_of_mem {r : ItemRow} (h : r ∈ itemRows) : itemRow r.id = some r := by
  have hsome : (itemRow r.id).isSome := by
    simp only [itemRow, List.find?_isSome]
    exact ⟨r, h, beq_self_eq_true _⟩
  obtain ⟨q, hq⟩ := Option.isSome_iff_exists.mp hsome
  have hid : q.id = r.id := by simpa using List.find?_some hq
  rw [hq, List.inj_on_of_nodup_map itemRows_ids_nodup (List.mem_of_find?_eq_some hq) h hid]

theorem ItemBlock.itemRow_eq {b : ItemBlock} {i : Nat} {r : ItemRow} (h : b.rows[i]? = some r) :
    itemRow (b.base + i) = some r := by
  rw [← row_id h]
  exact itemRow_of_mem ((mem_itemRows_iff r).mpr ⟨b, List.mem_of_getElem? h⟩)

theorem itemRow_block {k : Nat} {r : ItemRow} (h : itemRow k = some r) :
    ∃ (b : ItemBlock) (i : Nat), b.rows[i]? = some r ∧ k = b.base + i := by
  obtain ⟨b, hb⟩ := (ItemBlock.mem_itemRows_iff r).mp (List.mem_of_find?_eq_some h)
  obtain ⟨i, hi⟩ := List.mem_iff_getElem?.mp hb
  have hid : r.id = k := by simpa using List.find?_some h
  exact ⟨b, i, hi, hid ▸ ItemBlock.row_id hi⟩

/-! ### Values -/

theorem ItemBlock.value_eq {b : ItemBlock} {i : Nat} {r : ItemRow} (h : b.rows[i]? = some r)
    (x : Profile) : (b.values x)[i]? = some (r.get x) := by
  rw [← rows_get, List.getElem?_map, h]
  rfl

theorem ItemBlock.item_eq {b : ItemBlock} {x : Profile} {i : Nat} {v : Int}
    (h : (b.values x)[i]? = some v) : x.item (b.base + i) = some v := by
  rw [← rows_get, List.getElem?_map, Option.map_eq_some_iff] at h
  obtain ⟨r, hr, hv⟩ := h
  simp [Profile.item, itemRow_eq hr, hv]

theorem item_some {x : Profile} {k : Nat} {r : ItemRow} (h : itemRow k = some r) :
    x.item k = some (r.get x) := by simp [Profile.item, h]

theorem item_none {x : Profile} {k : Nat} (h : itemRow k = none) : x.item k = none := by
  simp [Profile.item, h]

theorem zones_getElem?_some {x : Profile} (hx : x.zones.length = 8) {z : Nat} {e : ZoneItems}
    (h : x.zones[z]? = some e) : z < 8 ∧ x.zoneAt z = e := by
  obtain ⟨hz, _⟩ := List.getElem?_eq_some_iff.mp h
  exact ⟨hx ▸ hz, by simp [Profile.zoneAt, h]⟩

theorem portItemNumber_eq (p : Port) : portItemNumber p = portCode p - 1 := by cases p <;> rfl

theorem itemsName {x : Profile} (hx : x.zones.length = 8) : ItemsName x := by
  refine ⟨fun i v h => ?_, fun z f e v he h => ?_, fun d f v h => ?_, fun p f v h => ?_⟩
  · rw [Nat.add_comm]
    exact ItemBlock.item_eq (b := .plain) h
  · obtain ⟨hz, hat⟩ := zones_getElem?_some hx he
    rw [← hat] at h
    exact ItemBlock.item_eq (b := .zone ⟨z, hz⟩) h
  · exact ItemBlock.item_eq (b := .detector d) h
  · rw [← portItemNumber_eq]
    exact ItemBlock.item_eq (b := .port p) h

/-! ### Writes -/

theorem writeItem_none {x : Profile} {k : Nat} (h : itemRow k = none) (v : Int) :
    x.writeItem k v = none := by simp [Profile.writeItem, h]

theorem writeItem_in {x : Profile} {k : Nat} {r : ItemRow} (h : itemRow k = some r) {v : Int}
    (hlo : r.lo ≤ v) (hhi : v ≤ r.hi) : x.writeItem k v = some (r.put x v) := by
  simp [Profile.writeItem, h, hlo, hhi]

theorem writeItem_out {x : Profile} {k : Nat} {r : ItemRow} (h : itemRow k = some r) {v : Int}
    (hv : v < r.lo ∨ r.hi < v) : x.writeItem k v = none := by
  have hnot : ¬(r.lo ≤ v ∧ v ≤ r.hi) := by omega
  simp only [Profile.writeItem, h, if_neg hnot]

/-- A row's write sets the row's item. -/
theorem item_put_same {x : Profile} (hx : x.zones.length = 8) {k : Nat} {r : ItemRow}
    (h : itemRow k = some r) {v : Int} (hlo : r.lo ≤ v) (hhi : v ≤ r.hi) :
    (r.put x v).item k = some v := by
  obtain ⟨b, i, hr, rfl⟩ := itemRow_block h
  apply ItemBlock.item_eq
  have hi : i < (b.values x).length :=
    (List.getElem?_eq_some_iff.mp (ItemBlock.value_eq hr x)).choose
  rw [ItemBlock.values_put_same hr hx hlo hhi, List.getElem?_set_self hi]

/-- A row's write leaves every other item. -/
theorem item_put_other {x : Profile} (hx : x.zones.length = 8) {id k : Nat} {r : ItemRow}
    (h : itemRow id = some r) {v : Int} (hlo : r.lo ≤ v) (hhi : v ≤ r.hi) (hk : k ≠ id) :
    (r.put x v).item k = x.item k := by
  cases hq : itemRow k with
  | none => rw [item_none hq, item_none hq]
  | some q =>
    obtain ⟨b, i, hr, rfl⟩ := itemRow_block h
    obtain ⟨c, j, hc, rfl⟩ := itemRow_block hq
    rw [item_some hq (x := x)]
    apply ItemBlock.item_eq
    rw [← ItemBlock.value_eq hc x]
    by_cases hbc : c = b
    · subst hbc
      have hij : i ≠ j := fun e => hk (by rw [e])
      rw [ItemBlock.values_put_same hr hx hlo hhi, List.getElem?_set_ne hij]
    · rw [ItemBlock.values_put_other (List.mem_of_getElem? hr) hbc]

/-! ### The printed table -/

/-- An item as R190 prints it: its range and its default. -/
def ItemRow.spec (r : ItemRow) : ItemSpec := ⟨r.lo, r.hi, r.get .default⟩

theorem itemRow_spec (id : Nat) : (itemRow id).map ItemRow.spec = itemSpec id := by
  by_cases h : id < 0x9C
  · have hall : ∀ k < 0x9C, (itemRow k).map ItemRow.spec = itemSpec k := by decide +kernel
    exact hall id h
  · have hrow : itemRow id = none := by
      have hids : ∀ k ∈ itemRows.map (·.id), k < 0x9C := by decide +kernel
      simp only [itemRow, List.find?_eq_none, beq_iff_eq]
      rintro r hr rfl
      exact h (hids r.id (List.mem_map_of_mem hr))
    have hspec : itemSpec id = none := by
      unfold itemSpec
      rw [if_neg (by omega), if_neg (by omega), if_neg (by omega), if_neg (by omega),
        if_neg (by omega)]
    rw [hrow, hspec]
    rfl

theorem default_item (id : Nat) : Profile.default.item id = (itemSpec id).map (·.value) := by
  rw [← itemRow_spec, Option.map_map]
  rfl

theorem itemRow_of_spec_none {id : Nat} (h : itemSpec id = none) : itemRow id = none := by
  rwa [← itemRow_spec, Option.map_eq_none_iff] at h

theorem itemRow_of_spec {id : Nat} {i : ItemSpec} (h : itemSpec id = some i) :
    ∃ r, itemRow id = some r ∧ r.lo = i.lo ∧ r.hi = i.hi := by
  rw [← itemRow_spec, Option.map_eq_some_iff] at h
  obtain ⟨r, hr, rfl⟩ := h
  exact ⟨r, hr, rfl, rfl⟩

/-- The write of a named item: refused outside the range, within it that item alone changes. -/
theorem writeItem_spec {x : Profile} (hx : x.zones.length = 8) {id : Nat} {i : ItemSpec}
    (h : itemSpec id = some i) (v : Int) :
    (v < i.lo ∨ i.hi < v → x.writeItem id v = none) ∧
      (i.lo ≤ v → v ≤ i.hi → ∃ y, x.writeItem id v = some y ∧ y.zones.length = 8 ∧
        y.item id = some v ∧ ∀ k, k ≠ id → y.item k = x.item k) := by
  obtain ⟨r, hr, hlo, hhi⟩ := itemRow_of_spec h
  rw [← hlo, ← hhi]
  refine ⟨writeItem_out hr, fun h₁ h₂ => ?_⟩
  have hy := writeItem_in hr h₁ h₂ (x := x)
  exact ⟨_, hy, (writeItem_zones hy).trans hx, item_put_same hx hr h₁ h₂,
    fun k hk => item_put_other hx hr h₁ h₂ hk⟩

end Sys2Proof.Machine
end

section
/-! PROOFS. The profile requests of the editor (R191 to R193, R197): open, abandon, write, read. -/
namespace Sys2Proof.Machine

/-! ### The handlers, by the holder -/

section
variable {p q : Port} {u : State}

theorem handleProfileOpen_free (pl : List Byte) (h : u.prof.holder = none) :
    handleProfileOpen p pl u =
      { state := u.setProf { u.prof with holder := some p, code := .staged }
        payload := [0x00, 0x01] ++ u8 (portCode p) } := by
  simp only [handleProfileOpen, h]
  rfl

theorem handleProfileOpen_held (pl : List Byte) (h : u.prof.holder = some q) :
    handleProfileOpen p pl u =
      { state := u
        payload := [if q = p then 0x00 else 0x14] ++ u8 u.prof.code.code ++ u8 (portCode q) } := by
  simp only [handleProfileOpen, h]
  split <;> rfl

theorem handleProfileAbandon_free (pl : List Byte) (h : u.prof.holder = none) :
    handleProfileAbandon p pl u =
      { state := u, payload := [0x00] ++ u8 u.prof.code.code } := by
  simp only [handleProfileAbandon, h]
  rfl

theorem handleProfileAbandon_own (pl : List Byte) (h : u.prof.holder = some p) :
    handleProfileAbandon p pl u =
      { state := abandonProfile u, payload := [0x00] ++ u8 (abandonProfile u).prof.code.code } := by
  simp only [handleProfileAbandon, h, if_true]
  rfl

theorem handleProfileAbandon_held (pl : List Byte) (hq : q ≠ p) (h : u.prof.holder = some q) :
    handleProfileAbandon p pl u = .code u .refusedBusy := by
  simp only [handleProfileAbandon, h, if_neg hq]

theorem handleProfileWrite_free (pl : List Byte) (h : u.prof.holder = none) :
    handleProfileWrite p pl u = .code u .refusedState := by
  simp only [handleProfileWrite, h]

theorem handleProfileWrite_held (pl : List Byte) (hq : q ≠ p) (h : u.prof.holder = some q) :
    handleProfileWrite p pl u = .code u .refusedBusy := by
  simp only [handleProfileWrite, h, if_neg hq]

theorem handleProfileWrite_none {pl : List Byte} (h : u.prof.holder = some p)
    (hw : u.prof.staged.writeItem (fieldAt pl 0 1) (signed32 (fieldAt pl 1 4)) = none) :
    handleProfileWrite p pl u = .code u .refusedRange := by
  simp only [handleProfileWrite, h, if_true, hw]

theorem handleProfileWrite_some {pl : List Byte} {y : Profile} (h : u.prof.holder = some p)
    (hw : u.prof.staged.writeItem (fieldAt pl 0 1) (signed32 (fieldAt pl 1 4)) = some y) :
    handleProfileWrite p pl u =
      { state := u.setProf { u.prof with staged := y, code := .staged }
        payload := [0x00] ++ u8 (fieldAt pl 0 1) ++ i32 (signed32 (fieldAt pl 1 4)) } := by
  simp only [handleProfileWrite, h, if_true, hw]
  rfl

/-! ### The reads, by the source -/

theorem readItem_none {x : Profile} {id : Nat} (h : x.item id = none) :
    readItem u x id = .code u .refusedRange := by simp only [readItem, h]

theorem readItem_some {x : Profile} {id : Byte} {v : Int} (h : x.item id.toNat = some v) :
    readItem u x id.toNat =
      { state := u
        payload := [0x00, id] ++ i32 v ++
          (u8 u.prof.code.code ++ u8 (optPortCode u.prof.holder) ++
            [u.prof.errorItem.getD 0]) } := by
  simp [readItem, h, codeOnly, Result.code]

theorem handleProfileRead_staged (id : Byte) :
    handleProfileRead p [id, 0] u = readItem u u.prof.staged id.toNat := by
  simp [handleProfileRead]

theorem handleProfileRead_committed (id : Byte) {pr : Profile} (h : u.prof.committed = some pr) :
    handleProfileRead p [id, 1] u = readItem u pr id.toNat := by
  simp [handleProfileRead, h]

theorem handleProfileRead_uncommitted (id : Byte) (h : u.prof.committed = none) :
    handleProfileRead p [id, 1] u = .code u .refusedPhase := by
  simp [handleProfileRead, h]

theorem handleProfileRead_unknown (id : Byte) {source : Byte} (h : 1 < source.toNat) :
    handleProfileRead p [id, source] u = .code u .refusedRange := by
  simp only [handleProfileRead, fieldAt_byte₁]
  split
  case h_1 h0 => omega
  case h_2 h1 => omega
  case h_3 => rfl

end

/-! ### The item read, answered -/

/-- A PROFILE_READ that reads table `x` answers the item's value, or the range refusal. -/
theorem profileRead_of {p : Port} {s : State} {id source : Byte} {x : Profile}
    (h : handleProfileRead p [id, source] (frameTaken p s) =
      readItem (frameTaken p s) x id.toNat) :
    (x.item id.toNat = none →
      exec (.profileRead p [id, source]) s = .next (answer p 0x12 [0x12] (frameTaken p s))) ∧
    ∀ v, x.item id.toNat = some v →
      exec (.profileRead p [id, source]) s =
        .next (answer p 0x12
          ([0x00, id] ++ i32 v ++
            (u8 (frameTaken p s).prof.code.code ++ u8 (optPortCode (frameTaken p s).prof.holder) ++
              [(frameTaken p s).prof.errorItem.getD 0])) (frameTaken p s)) :=
  ⟨fun hi => exec_refuses (r := .profileRead) (code := .refusedRange) rfl rfl
      (h.trans (readItem_none hi)),
    fun _ hi => exec_answers (r := .profileRead) rfl rfl (h.trans (readItem_some hi))⟩

/-- Settles O57: the item table block by block, then each request by the holder or the source. -/
theorem profileIsEdited : Obligations.ProfileIsEdited := by
  unfold Obligations.ProfileIsEdited
  refine ⟨fun x hx => ⟨itemsName hx, fun id h => ?_, fun id i h => ?_⟩, default_item,
    fun p s => ⟨fun h => ⟨?_, ?_⟩, fun h => ⟨?_, ?_⟩, fun q hq h => ⟨?_, ?_⟩,
      fun pl hl => ?_, fun id source => ?_⟩⟩
  · have hr := itemRow_of_spec_none h
    exact ⟨item_none hr, writeItem_none hr⟩
  · obtain ⟨r, hr, _⟩ := itemRow_of_spec h
    exact ⟨by rw [item_some hr]; rfl, writeItem_spec hx h⟩
  · exact exec_answers (r := .profileOpen) rfl rfl (handleProfileOpen_free [] h)
  · exact exec_answers (r := .profileAbandon) rfl rfl (handleProfileAbandon_free [] h)
  · refine exec_answers (r := .profileOpen) rfl rfl ?_
    rw [handlerOf, handleProfileOpen_held _ h, if_pos rfl]
  · exact exec_answers (r := .profileAbandon) rfl rfl (handleProfileAbandon_own [] h)
  · refine exec_answers (r := .profileOpen) rfl rfl ?_
    rw [handlerOf, handleProfileOpen_held _ h, if_neg hq]
  · exact exec_refuses (r := .profileAbandon) (code := .refusedBusy) rfl rfl
      (handleProfileAbandon_held [] hq h)
  · have hfit : lengthFits .profileWrite pl.length = true := by rw [hl]; rfl
    exact ⟨
      fun h => exec_refuses (r := .profileWrite) (code := .refusedState) rfl hfit
        (handleProfileWrite_free pl h),
      fun q hq h => exec_refuses (r := .profileWrite) (code := .refusedBusy) rfl hfit
        (handleProfileWrite_held pl hq h),
      fun h hw => exec_refuses (r := .profileWrite) (code := .refusedRange) rfl hfit
        (handleProfileWrite_none h hw),
      fun y h hw => exec_answers (r := .profileWrite) rfl hfit (handleProfileWrite_some h hw)⟩
  · refine ⟨?_, ?_, ?_, fun h => ?_⟩
    · rintro rfl
      exact profileRead_of (handleProfileRead_staged id)
    · rintro pr rfl h
      exact profileRead_of (handleProfileRead_committed id h)
    · rintro rfl h
      exact exec_refuses (r := .profileRead) (code := .refusedPhase) rfl rfl
        (handleProfileRead_uncommitted (p := p) id h)
    · exact exec_refuses (r := .profileRead) (code := .refusedRange) rfl rfl
        (handleProfileRead_unknown (p := p) id h)

end Sys2Proof.Machine
end

section
/-! PROOFS. The checks of a commit (R194): each check of the table as the rule states it. -/
namespace Sys2Proof.Machine

/-! ### The checks of a zone -/

section
variable {x : Profile} {z : Nat} {e : ZoneItems}

theorem zoneAt_of_getElem? (he : x.zones[z]? = some e) : x.zoneAt z = e := by
  simp [Profile.zoneAt, he]

theorem chillsBefore_eq (x : Profile) (z : Nat) :
    chillsBefore x z = (x.zones.take z).countP (fun b => b.kind == .chill) :=
  List.countP_eq_length_filter.symm

theorem closesMap_iff (hx : x.zones.length = 8) (he : x.zones[z]? = some e) :
    closesMap x z = true ↔
      (∀ b ∈ x.zones, b.kind ≠ .none) ∧ z = 7 ∨
        e.kind = .none ∧ ∀ b ∈ x.zones.take z, b.kind ≠ .none := by
  have hmem : e ∈ x.zones := List.mem_of_getElem? he
  have htake : x.zones.take 8 = x.zones := List.take_of_length_le hx.le
  have hall : x.zones.all (fun b => b.kind != .none) = true ↔ ∀ b ∈ x.zones, b.kind ≠ .none := by
    simp
  rw [closesMap, htake, zoneAt_of_getElem? he]
  by_cases h : ∀ b ∈ x.zones, b.kind ≠ .none
  · have hk : e.kind ≠ .none := h e hmem
    rw [if_pos (hall.mpr h), beq_iff_eq]
    exact ⟨fun h7 => .inl ⟨h, h7⟩, fun hc => hc.elim And.right fun k => absurd k.1 hk⟩
  · rw [if_neg (fun k => h (hall.mp k))]
    simp only [h, false_and, false_or]
    simp

/-- The kind's check closes the map on a CHILL zone. -/
theorem kindCheck_close_iff (hx : x.zones.length = 8) (he : x.zones[z]? = some e) :
    (!(closesMap x z) || decide (1 ≤ chillsBefore x z) || (z == 7 && e.kind == .chill)) = true ↔
      (e.kind = .none → (∀ b ∈ x.zones.take z, b.kind ≠ .none) →
        0 < (x.zones.take z).countP (fun b => b.kind == .chill)) ∧
      (z = 7 → (∀ b ∈ x.zones, b.kind ≠ .none) →
        0 < (x.zones.take z).countP (fun b => b.kind == .chill) ∨ e.kind = .chill) := by
  have hmem : e ∈ x.zones := List.mem_of_getElem? he
  have hnone : (∀ b ∈ x.zones, b.kind ≠ .none) → e.kind ≠ .none := fun h => h e hmem
  rw [← chillsBefore_eq]
  simp only [Bool.or_eq_true, Bool.not_eq_true', ← Bool.not_eq_true, Bool.and_eq_true,
    decide_eq_true_eq, beq_iff_eq, closesMap_iff hx he]
  generalize (∀ b ∈ x.zones, b.kind ≠ .none) = allUsed at hnone ⊢
  generalize (∀ b ∈ x.zones.take z, b.kind ≠ .none) = beforeUsed
  grind

/-- The kind's check against the zone before it. -/
theorem kindCheck_iff (hx : x.zones.length = 8) (he : x.zones[z]? = some e) :
    kindCheck x z = true ↔
      (z = 0 → e.kind = .dryer) ∧
      (∀ b, 0 < z → x.zones[z - 1]? = some b →
        (b.kind = .none → e.kind = .none) ∧ (b.kind = .chill → e.kind ≠ .dryer)) ∧
      (e.kind = .chill → 0 < z →
        (x.zones.take z).countP (fun b => b.kind == .chill) < 3) ∧
      (e.kind = .none → (∀ b ∈ x.zones.take z, b.kind ≠ .none) →
        0 < (x.zones.take z).countP (fun b => b.kind == .chill)) ∧
      (z = 7 → (∀ b ∈ x.zones, b.kind ≠ .none) →
        0 < (x.zones.take z).countP (fun b => b.kind == .chill) ∨ e.kind = .chill) := by
  rw [← kindCheck_close_iff hx he, kindCheck, zoneAt_of_getElem? he, ← chillsBefore_eq]
  generalize (!(closesMap x z) || decide (1 ≤ chillsBefore x z) || (z == 7 && e.kind == .chill)) =
    close
  obtain rfl | hz := Nat.eq_zero_or_pos z
  · simp
  · have hlen : z - 1 < x.zones.length := by
      have := (List.getElem?_eq_some_iff.mp he).choose
      omega
    have hb := List.getElem?_eq_getElem hlen
    rw [zoneAt_of_getElem? hb, hb]
    simp [hz, hz.ne']
    tauto

theorem spanCheck_iff (he : x.zones[z]? = some e) :
    spanCheck x z = true ↔
      (e.kind ≠ .none → 1 ≤ e.span ∧
        (((x.zones.take (z + 1)).filter (fun b => b.kind != .none)).map (·.span)).sum ≤ 128) := by
  rw [spanCheck, zoneAt_of_getElem? he]
  simp only [Bool.or_eq_true, Bool.and_eq_true, beq_iff_eq, decide_eq_true_eq,
    or_iff_not_imp_left]
  rfl

theorem shareCheck_iff (hx : x.zones.length = 8) (he : x.zones[z]? = some e) :
    shareCheck x z = true ↔
      (e.kind = .dryer → (∀ b ∈ x.zones.drop (z + 1), b.kind ≠ .dryer) →
        1 ≤ ((x.zones.filter (fun b => b.kind == .dryer)).map (·.share)).sum ∧
          ((x.zones.filter (fun b => b.kind == .dryer)).map (·.share)).sum ≤ 256) := by
  have htake : x.zones.take 8 = x.zones := List.take_of_length_le hx.le
  rw [shareCheck, zoneAt_of_getElem? he, htake]
  have hlater : (x.zones.drop (z + 1)).all (fun b => b.kind != .dryer) = true ↔
      ∀ b ∈ x.zones.drop (z + 1), b.kind ≠ .dryer := by simp
  simp only [Bool.or_eq_true, Bool.not_eq_true', ← Bool.not_eq_true, Bool.and_eq_true, beq_iff_eq,
    decide_eq_true_eq, hlater]
  tauto

theorem setMaxCheck_iff (he : x.zones[z]? = some e) :
    setMaxCheck x z = true ↔ (e.kind ≠ .none → e.setMin ≤ e.setMax) := by
  rw [setMaxCheck, zoneAt_of_getElem? he]
  simp [or_iff_not_imp_left]

end
end Sys2Proof.Machine
end

section
/-! PROOFS. The least item that fails (R194): the check of every id, and the search in order of id. -/
namespace Sys2Proof.Machine

/-! ### The check of an id -/

section
variable {x : Profile} {id : Nat}

/-- Below the zones' ids R194 has the checks of the plain items alone. -/
theorem itemPasses_low (h : id < 0x40) :
    ItemPasses x id ↔
      (id = 0x08 → 1 ≤ x.cLim) ∧ (id = 0x0B → x.loadTarget ≤ x.loadWarn) ∧
        (id = 0x0C → x.loadWarn ≤ x.loadHold) ∧ (id = 0x0D → x.loadHold ≤ x.loadTrip) ∧
        (id = 0x14 → x.crawlLimit < x.printMin) ∧ (id = 0x15 → x.printMin ≤ x.fillSpeed) ∧
        (id = 0x16 → x.fillSpeed ≤ x.speedMax) := by
  constructor
  · rintro ⟨h08, h0B, h0C, h0D, h14, h15, h16, -, -⟩
    exact ⟨h08, h0B, h0C, h0D, h14, h15, h16⟩
  · rintro ⟨h08, h0B, h0C, h0D, h14, h15, h16⟩
    exact ⟨h08, h0B, h0C, h0D, h14, h15, h16, fun z e _ =>
      ⟨fun _ => by omega, fun _ => by omega, fun _ => by omega, fun _ => by omega⟩,
      fun d hd => by omega⟩

theorem itemPasses_plain (h : id < 0x40) : itemCheck x id = true ↔ ItemPasses x id := by
  have hzone : ¬(0x40 ≤ id ∧ id < 0x80) := by omega
  rw [itemPasses_low h]
  unfold itemCheck
  by_cases h08 : id = 0x08
  · simp [h08]
  by_cases h0B : id = 0x0B
  · simp [h0B]
  by_cases h0C : id = 0x0C
  · simp [h0C]
  by_cases h0D : id = 0x0D
  · simp [h0D]
  by_cases h14 : id = 0x14
  · simp [h14]
  by_cases h15 : id = 0x15
  · simp [h15]
  by_cases h16 : id = 0x16
  · simp [h16]
  have hdets : id ≠ 0x80 ∧ id ≠ 0x84 ∧ id ≠ 0x88 ∧ id ≠ 0x8C := by omega
  simp [*]

theorem itemCheck_zone {z f : Nat} (hz : z < 8) (hf : f < 8) :
    itemCheck x (0x40 + 8 * z + f) =
      (if f = 0 then kindCheck x z
      else if f = 1 then spanCheck x z
      else if f = 4 then shareCheck x z
      else if f = 6 then setMaxCheck x z
      else true) := by
  have hdiv : (0x40 + 8 * z + f - 0x40) / 8 = z := by omega
  have hmod : (0x40 + 8 * z + f - 0x40) % 8 = f := by omega
  unfold itemCheck
  simp only [hdiv, hmod]
  rw [if_neg (by omega), if_neg (by omega), if_neg (by omega), if_neg (by omega),
    if_neg (by omega), if_neg (by omega), if_neg (by omega), if_pos (by omega)]

theorem itemPasses_zone (hx : x.zones.length = 8) {z f : Nat} (hz : z < 8) (hf : f < 8) :
    itemCheck x (0x40 + 8 * z + f) = true ↔ ItemPasses x (0x40 + 8 * z + f) := by
  rw [itemCheck_zone hz hf]
  constructor
  · intro hc
    refine ⟨fun _ => by omega, fun _ => by omega, fun _ => by omega, fun _ => by omega,
      fun _ => by omega, fun _ => by omega, fun _ => by omega,
      fun w e he => ⟨fun hid => ?_, fun hid => ?_, fun hid => ?_, fun hid => ?_⟩,
      fun d hd => by omega⟩
    · obtain ⟨rfl, rfl⟩ : f = 0 ∧ w = z := by omega
      exact (kindCheck_iff hx he).mp hc
    · obtain ⟨rfl, rfl⟩ : f = 1 ∧ w = z := by omega
      exact (spanCheck_iff he).mp hc
    · obtain ⟨rfl, rfl⟩ : f = 4 ∧ w = z := by omega
      exact (shareCheck_iff hx he).mp hc
    · obtain ⟨rfl, rfl⟩ : f = 6 ∧ w = z := by omega
      exact (setMaxCheck_iff he).mp hc
  · rintro ⟨-, -, -, -, -, -, -, hzone, -⟩
    have he := List.getElem?_eq_getElem (hx.symm ▸ hz)
    obtain ⟨hkind, hspan, hshare, hmax⟩ := hzone z _ he
    split_ifs with h0 h1 h4 h6
    · exact (kindCheck_iff hx he).mpr (hkind (by omega))
    · exact (spanCheck_iff he).mpr (hspan (by omega))
    · exact (shareCheck_iff hx he).mpr (hshare (by omega))
    · exact (setMaxCheck_iff he).mpr (hmax (by omega))
    · rfl

theorem itemCheck_detector (d : Detector) :
    itemCheck x (0x80 + 4 * detectorNumber d) =
      decide ((x.detectors.get d).position < x.ringLength) := by
  cases d <;> rfl

/-- From the detectors' ids on R194 has the checks of the positions alone. -/
theorem itemPasses_high (hx : x.zones.length = 8) (h : 0x80 ≤ id) :
    ItemPasses x id ↔
      ∀ d, id = 0x80 + 4 * detectorNumber d → (x.detectors.get d).position < x.ringLength := by
  constructor
  · rintro ⟨-, -, -, -, -, -, -, -, hdet⟩
    exact hdet
  · intro hdet
    refine ⟨fun _ => by omega, fun _ => by omega, fun _ => by omega, fun _ => by omega,
      fun _ => by omega, fun _ => by omega, fun _ => by omega, fun w e he => ?_, hdet⟩
    have hw := (zones_getElem?_some hx he).1
    exact ⟨fun _ => by omega, fun _ => by omega, fun _ => by omega, fun _ => by omega⟩

theorem itemPasses_above (hx : x.zones.length = 8) (h : 0x80 ≤ id) :
    itemCheck x id = true ↔ ItemPasses x id := by
  rw [itemPasses_high hx h]
  by_cases hid : ∃ d, id = 0x80 + 4 * detectorNumber d
  · obtain ⟨d, rfl⟩ := hid
    rw [itemCheck_detector, decide_eq_true_eq]
    refine ⟨fun hpos e he => ?_, fun hdet => hdet d rfl⟩
    have hnum : detectorNumber d = detectorNumber e := by omega
    have hde : d = e := Option.some.inj
      ((detectorOf_number d).symm.trans (hnum ▸ detectorOf_number e))
    exact hde ▸ hpos
  · have hnot : ∀ d, id ≠ 0x80 + 4 * detectorNumber d := fun d hd => hid ⟨d, hd⟩
    have hzone : ¬(0x40 ≤ id ∧ id < 0x80) := by omega
    have h0 := hnot .brk0
    have h1 := hnot .brk1
    have h2 := hnot .brk2
    have h3 := hnot .brk3
    have hplain : id ≠ 0x08 ∧ id ≠ 0x0B ∧ id ≠ 0x0C ∧ id ≠ 0x0D ∧ id ≠ 0x14 ∧ id ≠ 0x15 ∧
        id ≠ 0x16 := by omega
    simp only [detectorNumber] at h0 h1 h2 h3
    simp [itemCheck, *]

theorem itemCheck_iff (hx : x.zones.length = 8) (id : Nat) :
    itemCheck x id = true ↔ ItemPasses x id := by
  obtain hlow | hhigh := Nat.lt_or_ge id 0x40
  · exact itemPasses_plain hlow
  · obtain hzone | habove := Nat.lt_or_ge id 0x80
    · have hid : id = 0x40 + 8 * ((id - 0x40) / 8) + (id - 0x40) % 8 := by omega
      rw [hid]
      exact itemPasses_zone hx (by omega) (by omega)
    · exact itemPasses_above hx habove

/-! ### The search -/

theorem mem_ids_of_fails (h : itemCheck x id = false) : id ∈ itemRows.map (·.id) := by
  have hlisted : id = 0x08 ∨ id = 0x0B ∨ id = 0x0C ∨ id = 0x0D ∨ id = 0x14 ∨ id = 0x15 ∨
      id = 0x16 ∨ 0x40 ≤ id ∧ id < 0x80 ∨ id = 0x80 ∨ id = 0x84 ∨ id = 0x88 ∨ id = 0x8C := by
    by_contra hnot
    simp only [not_or] at hnot
    obtain ⟨h1, h2, h3, h4, h5, h6, h7, h8, h9, h10, h11, h12⟩ := hnot
    simp [itemCheck, *] at h
  have hids : ∀ k < 0x90, (k = 0x08 ∨ k = 0x0B ∨ k = 0x0C ∨ k = 0x0D ∨ k = 0x14 ∨ k = 0x15 ∨
      k = 0x16 ∨ 0x40 ≤ k ∧ k < 0x80 ∨ k = 0x80 ∨ k = 0x84 ∨ k = 0x88 ∨ k = 0x8C) →
      k ∈ itemRows.map (·.id) := by decide +kernel
  exact hids id (by omega) hlisted

theorem ids_sorted : (itemRows.map (·.id)).Pairwise (· < ·) := by decide +kernel

/-- In an ascending list the first element that satisfies a test is the least one. -/
theorem find?_ascending {p : Nat → Bool} {l : List Nat} (hl : l.Pairwise (· < ·)) (b : Nat) :
    l.find? p = some b ↔ b ∈ l ∧ p b = true ∧ ∀ k ∈ l, k < b → p k = false := by
  induction l with
  | nil => simp
  | cons a l ih =>
    obtain ⟨ha, hl⟩ := List.pairwise_cons.mp hl
    cases hp : p a with
    | true =>
      rw [List.find?_cons_of_pos hp, Option.some_inj]
      constructor
      · rintro rfl
        refine ⟨List.mem_cons_self, hp, fun k hk hlt => ?_⟩
        rcases List.mem_cons.mp hk with rfl | hk
        · exact absurd hlt (lt_irrefl _)
        · exact absurd hlt (ha k hk).le.not_gt
      · rintro ⟨hb, -, hleast⟩
        rcases List.mem_cons.mp hb with rfl | hb
        · rfl
        · exact absurd (hleast a List.mem_cons_self (ha b hb)) (by simp [hp])
    | false =>
      rw [List.find?_cons_of_neg (by simp [hp]), ih hl]
      constructor
      · rintro ⟨hb, hpb, hleast⟩
        exact ⟨List.mem_cons_of_mem _ hb, hpb, List.forall_mem_cons.mpr ⟨fun _ => hp, hleast⟩⟩
      · rintro ⟨hb, hpb, hleast⟩
        rcases List.mem_cons.mp hb with rfl | hb
        · exact absurd hpb (by simp [hp])
        · exact ⟨hb, hpb, (List.forall_mem_cons.mp hleast).2⟩

theorem firstFailure_eq_none_iff (x : Profile) :
    x.firstFailure = none ↔ ∀ id, itemCheck x id = true := by
  simp only [Profile.firstFailure, List.find?_eq_none, Bool.not_eq_true', Bool.not_eq_false]
  refine ⟨fun h id => ?_, fun h id _ => h id⟩
  by_contra hc
  exact hc (h id (mem_ids_of_fails (Bool.eq_false_of_not_eq_true hc)))

theorem firstFailure_eq_some_iff (x : Profile) (id : Nat) :
    x.firstFailure = some id ↔ itemCheck x id = false ∧ ∀ k < id, itemCheck x k = true := by
  rw [Profile.firstFailure, find?_ascending ids_sorted]
  simp only [Bool.not_eq_true', Bool.not_eq_false']
  constructor
  · rintro ⟨-, hfails, hleast⟩
    refine ⟨hfails, fun k hk => ?_⟩
    by_contra hc
    exact hc (hleast k (mem_ids_of_fails (Bool.eq_false_of_not_eq_true hc)) hk)
  · rintro ⟨hfails, hleast⟩
    exact ⟨mem_ids_of_fails hfails, hfails, fun k _ hk => hleast k hk⟩

end

end Sys2Proof.Machine
end

section
/-! PROOFS. The parts of a commit (R195), each said once: the blocks set, the phase, the ports, the
conditions. -/
namespace Sys2Proof.Machine

/-! ### The blocks the table sets -/

/-- Parts 2 to 5: the profile installed, the ring, the motion unit, the loads and the counts set. -/
def blocksCommitted (pr : Profile) (s : State) : State :=
  commitLine pr (commitLoad pr (commitMotion pr (commitRing pr (installProfile s))))

section
variable (pr : Profile) (s : State)

theorem blocksCommitted_frame :
    (blocksCommitted pr s).time = s.time ∧ (blocksCommitted pr s).brk = s.brk ∧
      (blocksCommitted pr s).arb = s.arb ∧ (blocksCommitted pr s).log = s.log ∧
      (blocksCommitted pr s).ports = s.ports := ⟨rfl, rfl, rfl, rfl, rfl⟩

theorem blocksCommitted_prof :
    (blocksCommitted pr s).prof =
      { committed := some s.prof.staged, staged := s.prof.staged, holder := none, code := .valid,
        errorItem := none } := rfl

theorem blocksCommitted_ring :
    (blocksCommitted pr s).ring =
      rebuildRing pr { s.ring with inputs := List.replicate pr.used.length pr.ambient } := rfl

theorem blocksCommitted_motion :
    (blocksCommitted pr s).motion =
      { s.motion with
        p := 0, d := 0, last := none, tStep := 0, vMeas := 0,
        stallTimer := if s.motion.state = .moving then some (pr.stallLimit * 1000) else none,
        dwellTimer := if s.motion.state = .still then some (pr.dwellInterval * 1000) else none } :=
  rfl

theorem blocksCommitted_load :
    (blocksCommitted pr s).load = { clearLoads (some pr) s.load with flow := 0 } := rfl

end

/-! ### The phase unit's records -/

/-- The records and counts a commit leaves the phase unit (R195). -/
structure LineCommitted (pr : Profile) (l : PhaseUnit) : Prop where
  setpoints : l.setpoints = pr.used.map (·.setMin)
  exhaust : l.exhaust = pr.flowFull
  speedGrant : l.speedGrant = pr.crawlLimit
  fill : l.fill = 0
  drain : l.drain = 0
  run : l.run = none
  mark : l.mark = 0
  ready : l.ready = .fails

theorem blocksCommitted_line (pr : Profile) (s : State) :
    LineCommitted pr (blocksCommitted pr s).line ∧
      (blocksCommitted pr s).line.phase = s.line.phase ∧
      (blocksCommitted pr s).line.cause = s.line.cause ∧
      (blocksCommitted pr s).line.estopActive = s.line.estopActive :=
  ⟨⟨rfl, rfl, rfl, rfl, rfl, rfl, rfl, rfl⟩, rfl, rfl, rfl⟩

/-- A change between phases that neither print nor drain keeps the records and counts. -/
theorem LineCommitted.phaseWrite {pr : Profile} {s : State} (h : LineCommitted pr s.line)
    {p : Phase} (hp : p = .cold ∨ p = .safe) (c : Cause) :
    LineCommitted pr (phaseWrite p c s).line := by
  by_cases hs : s.line.phase = p
  · rwa [phaseWrite_same hs]
  · obtain ⟨hsets, hexhaust, hgrant, hfill, hdrain, hrun, hmark, hready⟩ := h
    rw [phaseWrite_line hs]
    refine ⟨hsets, hexhaust, hgrant, ?_, ?_, ?_, hmark, ?_⟩
    · simp [lineOnChange, hfill]
    · simp [lineOnChange, hdrain]
    · simp [lineOnChange, hrun]
    · rcases hp with rfl | rfl <;> simp [lineOnChange, readyOnEntry, hready]

/-! ### The phase -/

section
variable {s : State}

theorem commitPhase_configured (h : s.line.phase ≠ .unconfigured) : commitPhase s = s := if_neg h

theorem commitPhase_cold (h : s.line.phase = .unconfigured) (he : s.line.estopActive = false) :
    commitPhase s = phaseWrite .cold .commit s := by
  have hne : s.line.phase ≠ .cold := by simp [h]
  have hestop : (phaseWrite .cold .commit s).line.estopActive = false := by
    rw [phaseWrite_line hne]
    exact he
  rw [commitPhase, if_pos h]
  simp only [hestop, Bool.false_eq_true, if_false]

theorem commitPhase_safe (h : s.line.phase = .unconfigured) (he : s.line.estopActive = true) :
    commitPhase s = phaseWrite .safe .estop (phaseWrite .cold .commit s) := by
  have hne : s.line.phase ≠ .cold := by simp [h]
  have hestop : (phaseWrite .cold .commit s).line.estopActive = true := by
    rw [phaseWrite_line hne]
    exact he
  rw [commitPhase, if_pos h]
  simp only [hestop, if_true]
  exact enterSafe_of_configured (by simp) _

theorem commitPhase_lineCommitted {pr : Profile} (h : LineCommitted pr s.line) :
    LineCommitted pr (commitPhase s).line := by
  by_cases hu : s.line.phase = .unconfigured
  · cases he : s.line.estopActive with
    | false =>
      rw [commitPhase_cold hu he]
      exact h.phaseWrite (.inl rfl) _
    | true =>
      rw [commitPhase_safe hu he]
      exact (h.phaseWrite (.inl rfl) _).phaseWrite (.inr rfl) _
  · rwa [commitPhase_configured hu]

/-- With nothing standing the abort leaves the arbiter as it was. -/
theorem abortChanges_arb_of_empty (hl : s.arb.list = []) (hf : s.arb.inFlight = none) :
    (abortChanges s).arb = s.arb := by
  rw [abortChanges_eq, endInFlight_of_none hf, hl, storeEnds, setArb_arb, ← hl]

theorem phaseWrite_safe_arb_of_empty (c : Cause) (hl : s.arb.list = [])
    (hf : s.arb.inFlight = none) : (phaseWrite .safe c s).arb = s.arb := by
  by_cases h : s.line.phase = .safe
  · rw [phaseWrite_same h]
  · have harb := phaseTaken_arb .safe c s
    rw [phaseWrite_eq h, arbiterPhaseChange, if_pos rfl,
      abortChanges_arb_of_empty (by rw [harb, hl]) (by rw [harb, hf]), harb]

/-- With nothing standing the commit's phase changes leave the arbiter as it was. -/
theorem commitPhase_arb_of_empty (hl : s.arb.list = []) (hf : s.arb.inFlight = none) :
    (commitPhase s).arb = s.arb := by
  by_cases hu : s.line.phase = .unconfigured
  · have hcold := phaseWrite_arb_of_empty (p := .cold) .commit hl (by simp)
    cases he : s.line.estopActive with
    | false => rw [commitPhase_cold hu he, hcold]
    | true =>
      rw [commitPhase_safe hu he,
        phaseWrite_safe_arb_of_empty _ (by rw [hcold, hl]) (by rw [hcold, hf]), hcold]
  · rw [commitPhase_configured hu]

theorem commitPhase_keeps (s : State) :
    KeepsPlant s (commitPhase s) ∧ KeepsLevels s (commitPhase s) ∧
      KeepsPending s (commitPhase s) :=
  have h := commitPhase_evolves s
  ⟨h.keeps, h.levels, .of_evolves h⟩

end

/-! ### The detectors -/

theorem commitDetectors_det (pr : Profile) (s : State) (d : Detector) :
    (commitDetectors pr s).det d =
      { cfg := some
          { position := (pr.detectors.get d).position, polarity := (pr.detectors.get d).polarity },
        armed := (pr.detectors.get d).armed, latch := false, level := (s.det d).level } := by
  change (PerDetector.of _).get d = _
  rw [PerDetector.get_of]
  rfl

theorem commitDetectors_frame (pr : Profile) (s : State) :
    (commitDetectors pr s).time = s.time ∧ (commitDetectors pr s).motion = s.motion ∧
      (commitDetectors pr s).ring = s.ring ∧ (commitDetectors pr s).load = s.load ∧
      (commitDetectors pr s).line = s.line ∧ (commitDetectors pr s).arb = s.arb ∧
      (commitDetectors pr s).log = s.log ∧ (commitDetectors pr s).prof = s.prof ∧
      (commitDetectors pr s).ports = s.ports ∧ (commitDetectors pr s).brk.pb = none :=
  ⟨rfl, rfl, rfl, rfl, rfl, rfl, rfl, rfl, rfl, rfl⟩

end Sys2Proof.Machine
end

section
/-! PROOFS. The last parts of a commit (R195): the WATERMARKs and the PROFILE record, the conditions. -/
namespace Sys2Proof.Machine

/-! ### The WATERMARKs -/

/-- Every port with the WATERMARK of table `pr`. -/
def watermarksTaken (pr : Profile) (s : State) : State :=
  takeWatermark pr .chill (takeWatermark pr .dryer (takeWatermark pr .line s))

theorem watermarksTaken_port (pr : Profile) (s : State) (q : Port) :
    (watermarksTaken pr s).port q =
      { s.port q with watermark := (pr.ports.get q).watermark } := by
  cases q <;> rfl

theorem commitWatermarks_eq (pr : Profile) (s : State) :
    commitWatermarks pr s = evalWatermarks (watermarksTaken pr s) := rfl

/-- Nothing differs but the log, the notices and the WATERMARKs, which are those of `pr`. -/
structure PortsCommitted (pr : Profile) (s t : State) : Prop where
  time : t.time = s.time
  motion : t.motion = s.motion
  ring : t.ring = s.ring
  load : t.load = s.load
  line : t.line = s.line
  brk : t.brk = s.brk
  arb : t.arb = s.arb
  prof : t.prof = s.prof
  link : ∀ q, (t.port q).link =
    { (s.port q).link with watermark := (pr.ports.get q).watermark }
  levels : KeepsLevels s t
  pending : KeepsPending s t

namespace PortsCommitted

variable {pr : Profile} {s t u : State}

theorem logOnly (h : PortsCommitted pr s t) (k : LogOnly t u) (hl : KeepsLevels t u)
    (hp : KeepsPending t u) : PortsCommitted pr s u := by
  obtain ⟨ktime, kmotion, kring, kload, -, -, kline, kbrk, karb, kprof, -, -, klink⟩ := k
  exact ⟨ktime.trans h.time, kmotion.trans h.motion, kring.trans h.ring, kload.trans h.load,
    kline.trans h.line, kbrk.trans h.brk, karb.trans h.arb, kprof.trans h.prof,
    fun q => (klink q).trans (h.link q), h.levels.trans hl, h.pending.trans hp⟩

/-- The WATERMARK of a port in force is the table's. -/
theorem watermark (h : PortsCommitted pr s t) (q : Port) :
    t.watermark q = (pr.ports.get q).watermark := congrArg PortState.watermark (h.link q)

end PortsCommitted

theorem watermarksTaken_committed (pr : Profile) (s : State) :
    PortsCommitted pr s (watermarksTaken pr s) where
  time := rfl
  motion := rfl
  ring := rfl
  load := rfl
  line := rfl
  brk := rfl
  arb := rfl
  prof := rfl
  link q := by rw [watermarksTaken_port]; rfl
  levels _ q _ := by rw [watermarksTaken_port]; exact ⟨rfl, rfl⟩
  pending _ q h := by rw [watermarksTaken_port]; exact h

theorem NoticesOnly.logOnly {s t : State} (h : NoticesOnly s t) : LogOnly s t := by
  obtain ⟨htime, hmotion, hring, hload, hpwm, henv, hline, hbrk, harb, -, hprof, hpending, hfree,
    hlink⟩ := h
  exact ⟨htime, hmotion, hring, hload, hpwm, henv, hline, hbrk, harb, hprof, hpending, hfree, hlink⟩

theorem commitWatermarks_committed (pr : Profile) (s : State) :
    PortsCommitted pr s (commitWatermarks pr s) := by
  rw [commitWatermarks_eq]
  exact (watermarksTaken_committed pr s).logOnly (NoticesOnly.logOnly (evalWatermarks_frame _))
    (evalWatermarks_levels _) (.evalWatermarks _)

/-! ### The PROFILE record -/

theorem commitRecord_committed (p : Port) (pr : Profile) (s : State) :
    PortsCommitted pr s (commitRecord p pr (commitWatermarks pr s)) :=
  (commitWatermarks_committed pr s).logOnly (logAppend_frame _ _) (logAppend_levels _ _)
    (.logAppend _ _)

theorem commitRecord_log (p : Port) (pr : Profile) (s : State) :
    (commitRecord p pr (commitWatermarks pr s)).log =
      (logAppend (.profile p pr.ringLength s.line.phase) s).log := by
  rw [commitRecord, (commitWatermarks_committed pr s).line]
  exact logAppend_log_congr _ rfl rfl

theorem watermark_of_link {s t : State} {q : Port} (h : (t.port q).link = (s.port q).link) :
    t.watermark q = s.watermark q := by
  have hmark := congrArg PortState.watermark h
  exact hmark

/-- LOG_WATERMARK holds where the count stands at the WATERMARK or above it. -/
def MarksCurrent (s : State) : Prop :=
  ∀ q, Notice.logWatermark.inSet (s.port q).holding =
    decide (s.watermark q ≤ s.log.unread.get q)

theorem evalWatermarks_marks (s : State) : MarksCurrent (evalWatermarks s) := by
  intro q
  have hmark : (evalWatermarks s).watermark q = s.watermark q := by
    obtain ⟨-, -, -, -, -, -, -, -, -, -, -, -, -, hlink⟩ := evalWatermarks_frame s
    exact watermark_of_link (hlink q)
  rw [hmark]
  simp [evalWatermarks]
  rfl

/-- An append leaves the conditions current: it evaluates them, or in FROZEN changes no count. -/
theorem logAppend_marks (b : LogBody) {s : State} (h : MarksCurrent s) :
    MarksCurrent (logAppend b s) := by
  intro q
  have hmark : (logAppend b s).watermark q = s.watermark q := by
    obtain ⟨-, -, -, -, -, -, -, -, -, -, -, -, hlink⟩ := logAppend_frame b s
    exact watermark_of_link (hlink q)
  rw [hmark]
  by_cases hf : s.log.freeze = .frozen
  · rw [logAppend_frozen hf]
    exact h q
  · exact (logAppend_placed hf).watermarks q

theorem commitRecord_marks (p : Port) (pr : Profile) (s : State) :
    MarksCurrent (commitRecord p pr (commitWatermarks pr s)) :=
  logAppend_marks _ (evalWatermarks_marks _)

/-! ### The notice the old WATERMARK gives (log 31) -/

section
variable (s t : State) (q : Port) (u : State)

theorem raiseUnderOld_frame : NoticesOnly u (raiseUnderOld s t q u) := by
  unfold raiseUnderOld
  split
  · exact raiseAt_frame _ _ _
  · simp [NoticesOnly]

theorem raiseUnderOld_levels : KeepsLevels u (raiseUnderOld s t q u) := by
  unfold raiseUnderOld
  split
  · exact raiseAt_levels rfl _ _
  · exact .refl u

theorem raiseUnderOld_pending : KeepsPending u (raiseUnderOld s t q u) := by
  unfold raiseUnderOld
  split
  · exact .raiseAt _ _ _
  · exact .refl u

theorem raiseUnderOld_holding (r : Port) :
    ((raiseUnderOld s t q u).port r).holding = (u.port r).holding := by
  unfold raiseUnderOld
  split
  · rw [raiseAt, modPort_port]
    split
    · next h => rw [h, raise_holding]
    · rfl
  · rfl

end

theorem commitPorts_eq (p : Port) (pr : Profile) (s : State) :
    let t := commitRecord p pr (commitWatermarks pr s)
    commitPorts p pr s =
      raiseUnderOld s t .chill (raiseUnderOld s t .dryer (raiseUnderOld s t .line t)) := rfl

theorem PortsCommitted.raiseUnderOld {pr : Profile} {s u : State} (h : PortsCommitted pr s u)
    (a b : State) (q : Port) : PortsCommitted pr s (raiseUnderOld a b q u) :=
  h.logOnly (NoticesOnly.logOnly (raiseUnderOld_frame a b q u)) (raiseUnderOld_levels a b q u)
    (raiseUnderOld_pending a b q u)

theorem MarksCurrent.raiseUnderOld {u : State} (h : MarksCurrent u) (a b : State) (q : Port) :
    MarksCurrent (raiseUnderOld a b q u) := by
  obtain ⟨-, -, -, -, -, -, -, -, -, hlog, -, -, -, hlink⟩ := raiseUnderOld_frame a b q u
  intro r
  have hmark : (Machine.raiseUnderOld a b q u).watermark r = u.watermark r :=
    watermark_of_link (hlink r)
  rw [raiseUnderOld_holding, hmark, hlog]
  exact h r

/-- Parts 7 and 8: the WATERMARKs, the PROFILE record and the conditions of both. -/
theorem commitPorts_committed (p : Port) (pr : Profile) (s : State) :
    PortsCommitted pr s (commitPorts p pr s) ∧ MarksCurrent (commitPorts p pr s) ∧
      (commitPorts p pr s).log = (logAppend (.profile p pr.ringLength s.line.phase) s).log := by
  rw [commitPorts_eq, ← commitRecord_log]
  generalize hc : commitRecord p pr (commitWatermarks pr s) = t
  refine ⟨?_, ?_, ?_⟩
  · have h : PortsCommitted pr s t := hc ▸ commitRecord_committed p pr s
    exact ((h.raiseUnderOld s t .line).raiseUnderOld s t .dryer).raiseUnderOld s t .chill
  · have h : MarksCurrent t := hc ▸ commitRecord_marks p pr s
    exact ((h.raiseUnderOld s t .line).raiseUnderOld s t .dryer).raiseUnderOld s t .chill
  · obtain ⟨-, -, -, -, -, -, -, -, -, hline, -⟩ := raiseUnderOld_frame s t .line t
    obtain ⟨-, -, -, -, -, -, -, -, -, hdryer, -⟩ :=
      raiseUnderOld_frame s t .dryer (raiseUnderOld s t .line t)
    obtain ⟨-, -, -, -, -, -, -, -, -, hchill, -⟩ :=
      raiseUnderOld_frame s t .chill (raiseUnderOld s t .dryer (raiseUnderOld s t .line t))
    exact hchill.trans (hdryer.trans hline)

/-! ### The conditions (part 9) -/

section
variable (s : State)

/-- The floor duty and the envelope, before the level conditions. -/
def envelopeSettled (s : State) : State := recompute (setIdle false (setFloorDuty s))

theorem settleConditions_eq :
    settleConditions s = evalStall (evalLoadConditions (envelopeSettled s)) := rfl

theorem conditions_notices : NoticesOnly (envelopeSettled s) (settleConditions s) := by
  rw [settleConditions_eq]
  have h := evalLoadConditions_notices (envelopeSettled s)
  have k := evalStall_frame (evalLoadConditions (envelopeSettled s))
  simp_all [NoticesOnly]

theorem envelopeSettled_frame :
    (envelopeSettled s).line = s.line ∧ (envelopeSettled s).arb = s.arb ∧
      (envelopeSettled s).brk = s.brk ∧ (envelopeSettled s).log = s.log ∧
      (envelopeSettled s).env.idle = false := by
  refine ⟨?_, ?_, ?_, ?_, ?_⟩
  · simp [envelopeSettled]
  · simp [envelopeSettled]
  · simp [envelopeSettled]
  · simp [envelopeSettled]
  · simp [envelopeSettled]

theorem settleConditions_keeps :
    KeepsPlant s (settleConditions s) ∧ (settleConditions s).line = s.line ∧
      (settleConditions s).arb = s.arb ∧ (settleConditions s).brk = s.brk ∧
      (settleConditions s).log = s.log ∧ (settleConditions s).env.idle = false := by
  have hnotices := conditions_notices s
  have hafter : KeepsPlant (envelopeSettled s) (settleConditions s) :=
    LogOnly.keepsPlant (NoticesOnly.logOnly hnotices)
  have hbefore : KeepsPlant s (envelopeSettled s) := by simp [KeepsPlant, envelopeSettled]
  obtain ⟨-, -, -, -, -, nenv, nline, nbrk, narb, nlog, -⟩ := hnotices
  obtain ⟨eline, earb, ebrk, elog, eidle⟩ := envelopeSettled_frame s
  exact ⟨hbefore.trans hafter, nline.trans eline, narb.trans earb, nbrk.trans ebrk,
    nlog.trans elog, (congrArg Envelope.idle nenv).trans eidle⟩

theorem settleConditions_current :
    EnvelopeCurrent (settleConditions s) ∧ DutyCurrent (settleConditions s) := by
  have hnotices := conditions_notices s
  have hframe := LogOnly.keepsPlant (NoticesOnly.logOnly hnotices)
  obtain ⟨-, -, -, nload, -, nenv, nline, -⟩ := hnotices
  have hcurrent : KeepsCurrent (envelopeSettled s) (settleConditions s) :=
    .of_frame hframe nline nenv nload
  exact ⟨hcurrent.env (recompute_envelopeCurrent _),
    hcurrent.duty (recompute_dutyCurrent
      (setIdle_dutyCurrent false (setFloorDuty_dutyCurrent s)))⟩

theorem envelopeSettled_levels : KeepsLevels s (envelopeSettled s) :=
  .after_eq rfl (recompute_levels (setIdle false (setFloorDuty s)))

theorem settleConditions_pending : KeepsPending s (settleConditions s) := by
  have hload : ∀ t, KeepsPending t (evalLoadConditions t) := by
    intro t
    unfold evalLoadConditions
    split <;> exact (KeepsPending.setConditionAll _ _ _).trans (.setConditionAll _ _ _)
  rw [settleConditions_eq]
  exact (KeepsPending.after_ports (.recompute (setIdle false (setFloorDuty s))) rfl).trans
    ((hload _).trans (.setConditionAll _ _ _))

theorem recompute_marksLevel : KeepsLevel .logWatermark s (recompute s) := by
  rw [recompute_eq]
  refine .trans ?_ (setConditionAll_keepsLevel (by decide) _ _)
  split
  · exact raiseAll_keepsLevel (k := .logWatermark) (j := .ceilingDrop) (by decide) (s.setEnv _)
  · exact fun p => ⟨rfl, rfl⟩

theorem settleConditions_marksLevel : KeepsLevel .logWatermark s (settleConditions s) := by
  have henvelope : KeepsLevel .logWatermark s (envelopeSettled s) :=
    recompute_marksLevel (setIdle false (setFloorDuty s))
  have hload : ∀ t, KeepsLevel .logWatermark t (evalLoadConditions t) := by
    intro t
    unfold evalLoadConditions
    split <;> exact (setConditionAll_keepsLevel (by decide) _ _).trans
      (setConditionAll_keepsLevel (by decide) _ _)
  rw [settleConditions_eq]
  exact (henvelope.trans (hload _)).trans (setConditionAll_keepsLevel (by decide) _ _)

theorem settleConditions_marks (h : MarksCurrent s) : MarksCurrent (settleConditions s) := by
  obtain ⟨hframe, -, -, -, hlog, -⟩ := settleConditions_keeps s
  intro q
  rw [(settleConditions_marksLevel s q).1, watermark_of_link (hframe.link q), hlog]
  exact h q

/-- The level conditions of the load and of the web, for the table committed. -/
theorem settleConditions_levels {pr : Profile} (h : s.prof.committed = some pr) :
    LevelBecomes .stall (s.motion.state == .still) s (settleConditions s) ∧
      LevelBecomes .loadWarn (decide (pr.loadWarn ≤ s.load.peak)) s (settleConditions s) ∧
      LevelBecomes .loadTrip (decide (pr.loadTrip ≤ s.load.peak)) s (settleConditions s) := by
  have hframe : KeepsPlant s (envelopeSettled s) := by simp [KeepsPlant, envelopeSettled]
  have hlevels := envelopeSettled_levels s
  have hc : (envelopeSettled s).prof.committed = some pr := by rw [hframe.prof, h]
  obtain ⟨hwarn, htrip⟩ := evalLoadConditions_levels hc
  rw [hframe.peak] at hwarn htrip
  rw [settleConditions_eq]
  refine ⟨?_, ?_, ?_⟩
  · have hload := evalLoadConditions_keeps (envelopeSettled s)
    have hstall := setConditionAll_becomes .stall (s.motion.state == .still)
      (evalLoadConditions (envelopeSettled s))
    have heval : evalStall (evalLoadConditions (envelopeSettled s)) =
        setConditionAll .stall (s.motion.state == .still)
          (evalLoadConditions (envelopeSettled s)) := by
      rw [evalStall, hload.motion, hload.prof, hframe.motion, hc, Option.isSome_some, Bool.and_true]
    have hkept : KeepsLevel .stall (envelopeSettled s) (evalLoadConditions (envelopeSettled s)) := by
      rw [evalLoadConditions_of_committed hc]
      exact (setConditionAll_keepsLevel (by decide) _ _).trans
        (setConditionAll_keepsLevel (by decide) _ _)
    rw [heval]
    exact hstall.of_keepsLevel ((hlevels.keepsLevel rfl).trans hkept)
  · exact (hwarn.keepsLevel (setConditionAll_keepsLevel (by decide) _ _)).of_keepsLevel
      (hlevels.keepsLevel rfl)
  · exact (htrip.keepsLevel (setConditionAll_keepsLevel (by decide) _ _)).of_keepsLevel
      (hlevels.keepsLevel rfl)

end
end Sys2Proof.Machine
end

section
/-! PROOFS. PROFILE_COMMIT (R194, R195): the tests in their order and the whole commit. -/
namespace Sys2Proof.Machine

/-! ### The blocks through the later parts -/

/-- What the phase, the detectors, the ports and the conditions leave alone at a commit. -/
structure SameBlocks (s t : State) : Prop where
  time : t.time = s.time
  motion : t.motion = s.motion
  ring : t.ring = s.ring
  flow : t.load.flow = s.load.flow
  loads : t.load.loads = s.load.loads
  peak : t.load.peak = s.load.peak
  peakZone : t.load.peakZone = s.load.peakZone
  tripCount : t.load.tripCount = s.load.tripCount
  fReq : t.load.fReq = s.load.fReq
  baseDuty : t.load.baseDuty = s.load.baseDuty
  prof : t.prof = s.prof

namespace SameBlocks

variable {s t u : State}

theorem trans (h : SameBlocks s t) (k : SameBlocks t u) : SameBlocks s u :=
  ⟨k.time.trans h.time, k.motion.trans h.motion, k.ring.trans h.ring, k.flow.trans h.flow,
    k.loads.trans h.loads, k.peak.trans h.peak, k.peakZone.trans h.peakZone,
    k.tripCount.trans h.tripCount, k.fReq.trans h.fReq, k.baseDuty.trans h.baseDuty,
    k.prof.trans h.prof⟩

theorem of_plant (h : KeepsPlant s t) : SameBlocks s t := by
  obtain ⟨htime, hmotion, hring, hflow, hloads, hpeak, hzone, htrip, hreq, hbase, -, -, hprof, -⟩ :=
    h
  exact ⟨htime, hmotion, hring, hflow, hloads, hpeak, hzone, htrip, hreq, hbase, hprof⟩

theorem of_ports {pr : Profile} (h : PortsCommitted pr s t) : SameBlocks s t :=
  ⟨h.time, h.motion, h.ring, congrArg Load.flow h.load, congrArg Load.loads h.load,
    congrArg Load.peak h.load, congrArg Load.peakZone h.load, congrArg Load.tripCount h.load,
    congrArg Load.fReq h.load, congrArg Load.baseDuty h.load, h.prof⟩

theorem commitDetectors (pr : Profile) (s : State) : SameBlocks s (commitDetectors pr s) :=
  ⟨rfl, rfl, rfl, rfl, rfl, rfl, rfl, rfl, rfl, rfl, rfl⟩

end SameBlocks

/-! ### The parts in turn -/

/-- The state after the blocks (parts 1 to 5). -/
def commitBlocks (s : State) : State := blocksCommitted s.prof.staged (changesReset s)

/-- The state after the phase and the detectors (parts 5 and 6). -/
def commitUnits (s : State) : State := commitDetectors s.prof.staged (commitPhase (commitBlocks s))

theorem commitProfile_eq (p : Port) (s : State) :
    commitProfile p s = settleConditions (commitPorts p s.prof.staged (commitUnits s)) := rfl

section
variable (p : Port) (s : State)

theorem commitBlocks_frame :
    (commitBlocks s).time = s.time ∧ (commitBlocks s).brk = s.brk ∧
      (commitBlocks s).arb = (changesReset s).arb ∧ (commitBlocks s).log = s.log ∧
      (commitBlocks s).ports = (changesReset s).ports := by
  obtain ⟨ctime, -, -, -, -, -, -, cbrk, clog, -⟩ := changesReset_frame s
  obtain ⟨btime, bbrk, barb, blog, bports⟩ := blocksCommitted_frame s.prof.staged (changesReset s)
  exact ⟨btime.trans ctime, bbrk.trans cbrk, barb, blog.trans clog, bports⟩

theorem commitBlocks_set :
    let pr := s.prof.staged
    (commitBlocks s).prof =
        { committed := some pr, staged := pr, holder := none, code := .valid, errorItem := none } ∧
      (commitBlocks s).ring =
        rebuildRing pr { s.ring with inputs := List.replicate pr.used.length pr.ambient } ∧
      (commitBlocks s).motion =
        { s.motion with
          p := 0, d := 0, last := none, tStep := 0, vMeas := 0,
          stallTimer := if s.motion.state = .moving then some (pr.stallLimit * 1000) else none,
          dwellTimer := if s.motion.state = .still then some (pr.dwellInterval * 1000) else none } ∧
      (commitBlocks s).load = { clearLoads (some pr) s.load with flow := 0 } := by
  obtain ⟨-, cmotion, cring, cload, -, -, -, -, -, cprof, -⟩ := changesReset_frame s
  have hprof := blocksCommitted_prof s.prof.staged (changesReset s)
  have hring := blocksCommitted_ring s.prof.staged (changesReset s)
  have hmotion := blocksCommitted_motion s.prof.staged (changesReset s)
  have hload := blocksCommitted_load s.prof.staged (changesReset s)
  rw [cprof] at hprof
  rw [cring] at hring
  rw [cmotion] at hmotion
  rw [cload] at hload
  exact ⟨hprof, hring, hmotion, hload⟩

theorem commitBlocks_line :
    LineCommitted s.prof.staged (commitBlocks s).line ∧
      (commitBlocks s).line.phase = s.line.phase ∧ (commitBlocks s).line.cause = s.line.cause ∧
      (commitBlocks s).line.estopActive = s.line.estopActive := by
  obtain ⟨-, -, -, -, -, -, cline, -⟩ := changesReset_frame s
  obtain ⟨hline, hphase, hcause, hestop⟩ := blocksCommitted_line s.prof.staged (changesReset s)
  rw [cline] at hphase hcause hestop
  exact ⟨hline, hphase, hcause, hestop⟩

theorem commitProfile_blocks : SameBlocks (commitBlocks s) (commitProfile p s) := by
  have hphase := SameBlocks.of_plant (commitPhase_keeps (commitBlocks s)).1
  have hports := SameBlocks.of_ports
    (commitPorts_committed p s.prof.staged (commitUnits s)).1
  have hsettled := SameBlocks.of_plant
    (settleConditions_keeps (commitPorts p s.prof.staged (commitUnits s))).1
  rw [commitProfile_eq]
  exact ((hphase.trans (.commitDetectors _ _)).trans hports).trans hsettled

/-- The phase unit, the arbiter and the detectors are as the units' part leaves them. -/
theorem commitProfile_units :
    (commitProfile p s).line = (commitPhase (commitBlocks s)).line ∧
      (commitProfile p s).arb = (changesReset s).arb ∧
      (commitProfile p s).brk = (commitUnits s).brk := by
  obtain ⟨hports, -⟩ := commitPorts_committed p s.prof.staged (commitUnits s)
  obtain ⟨-, sline, sarb, sbrk, -⟩ :=
    settleConditions_keeps (commitPorts p s.prof.staged (commitUnits s))
  obtain ⟨-, -, barb, -⟩ := commitBlocks_frame s
  obtain ⟨clist, cflight, -⟩ := changesReset_arb s
  have hphase : (commitPhase (commitBlocks s)).arb = (commitBlocks s).arb :=
    commitPhase_arb_of_empty (by rw [barb, clist]) (by rw [barb, cflight])
  rw [commitProfile_eq]
  exact ⟨sline.trans hports.line, sarb.trans (hports.arb.trans (hphase.trans barb)),
    sbrk.trans hports.brk⟩

theorem commitProfile_det (d : Detector) :
    (commitProfile p s).det d =
      { cfg := some
          { position := (s.prof.staged.detectors.get d).position,
            polarity := (s.prof.staged.detectors.get d).polarity },
        armed := (s.prof.staged.detectors.get d).armed, latch := false,
        level := (s.det d).level } := by
  obtain ⟨-, -, hbrk⟩ := commitProfile_units p s
  obtain ⟨-, bbrk, -⟩ := commitBlocks_frame s
  have hdets := (commitPhase_keeps (commitBlocks s)).1.dets
  have hdet : (commitPhase (commitBlocks s)).det d = s.det d := by
    rw [State.det, hdets, bbrk]
    rfl
  rw [State.det, hbrk, ← hdet]
  exact commitDetectors_det _ _ d

theorem commitProfile_pb : (commitProfile p s).brk.pb = none := by
  obtain ⟨-, -, hbrk⟩ := commitProfile_units p s
  rw [hbrk]
  rfl

theorem commitProfile_envelope :
    (commitProfile p s).env = envelopeOf (commitProfile p s) ∧
      (commitProfile p s).load.floorDuty = floorDuty (commitProfile p s) ∧
      (commitProfile p s).env.idle = false := by
  obtain ⟨henv, hduty⟩ := settleConditions_current (commitPorts p s.prof.staged (commitUnits s))
  obtain ⟨-, -, -, -, -, hidle⟩ :=
    settleConditions_keeps (commitPorts p s.prof.staged (commitUnits s))
  exact ⟨henv, hduty, hidle⟩

/-! ### The log -/

/-- The PROFILE record comes after the log the phase changes leave, with the phase they leave. -/
theorem commitProfile_log :
    (commitProfile p s).log =
      (logAppend (.profile p s.prof.staged.ringLength (commitPhase (commitBlocks s)).line.phase)
        (commitPhase (commitBlocks s))).log := by
  obtain ⟨-, -, hlog⟩ := commitPorts_committed p s.prof.staged (commitUnits s)
  obtain ⟨-, -, -, -, slog, -⟩ :=
    settleConditions_keeps (commitPorts p s.prof.staged (commitUnits s))
  rw [commitProfile_eq, slog, hlog]
  exact logAppend_log_congr _ rfl rfl

theorem commitProfile_configured (h : s.line.phase ≠ .unconfigured) :
    (commitProfile p s).line.phase = s.line.phase ∧ (commitProfile p s).line.cause = s.line.cause ∧
      (commitProfile p s).log =
        (logAppend (.profile p s.prof.staged.ringLength s.line.phase) s).log := by
  obtain ⟨hline, -⟩ := commitProfile_units p s
  obtain ⟨-, bphase, bcause, -⟩ := commitBlocks_line s
  obtain ⟨btime, -, -, blog, -⟩ := commitBlocks_frame s
  have hphase : commitPhase (commitBlocks s) = commitBlocks s :=
    commitPhase_configured (by rwa [bphase])
  rw [hphase] at hline
  rw [commitProfile_log, hphase, hline, bphase, bcause]
  exact ⟨rfl, rfl, logAppend_log_congr _ blog btime⟩

/-- The first PHASE record of a commit from UNCONFIGURED, with v_meas 0. -/
theorem commitBlocks_cold (h : s.line.phase = .unconfigured) :
    (phaseWrite .cold .commit (commitBlocks s)).log =
        (logAppend (.phase .unconfigured .cold .commit 0) s).log ∧
      (phaseWrite .cold .commit (commitBlocks s)).time = s.time ∧
      (phaseWrite .cold .commit (commitBlocks s)).motion.vMeas = 0 := by
  obtain ⟨-, bphase, -⟩ := commitBlocks_line s
  obtain ⟨btime, -, -, blog, -⟩ := commitBlocks_frame s
  obtain ⟨-, -, bmotion, -⟩ := commitBlocks_set s
  have hframe := phaseWrite_frame .cold .commit (commitBlocks s)
  have hv : (commitBlocks s).motion.vMeas = 0 := by rw [bmotion]
  have hne : (commitBlocks s).line.phase ≠ .cold := by simp [bphase, h]
  refine ⟨?_, hframe.time.trans btime, by rw [hframe.motion, hv]⟩
  rw [phaseWrite_log hne, bphase, h, hv]
  exact logAppend_log_congr _ blog btime

theorem commitProfile_cold (h : s.line.phase = .unconfigured) (he : s.line.estopActive = false) :
    (commitProfile p s).line.phase = .cold ∧ (commitProfile p s).line.cause = .commit ∧
      (commitProfile p s).log =
        (logAppend (.profile p s.prof.staged.ringLength .cold)
          (logAppend (.phase .unconfigured .cold .commit 0) s)).log := by
  obtain ⟨hline, -⟩ := commitProfile_units p s
  obtain ⟨-, bphase, -, bestop⟩ := commitBlocks_line s
  obtain ⟨hlog, htime, -⟩ := commitBlocks_cold s h
  have hphase := commitPhase_cold (bphase.trans h) (bestop.trans he)
  have hne : (commitBlocks s).line.phase ≠ .cold := by simp [bphase, h]
  rw [hphase] at hline
  rw [commitProfile_log, hphase, hline, phaseWrite_phase]
  refine ⟨rfl, by rw [phaseWrite_line hne]; rfl, logAppend_log_congr _ hlog ?_⟩
  rw [htime, (logAppend_frame _ s).1]

theorem commitProfile_safe (h : s.line.phase = .unconfigured) (he : s.line.estopActive = true) :
    (commitProfile p s).line.phase = .safe ∧ (commitProfile p s).line.cause = .estop ∧
      (commitProfile p s).log =
        (logAppend (.profile p s.prof.staged.ringLength .safe)
          (logAppend (.phase .cold .safe .estop 0)
            (logAppend (.phase .unconfigured .cold .commit 0) s))).log := by
  obtain ⟨hline, -⟩ := commitProfile_units p s
  obtain ⟨-, bphase, -, bestop⟩ := commitBlocks_line s
  obtain ⟨hlog, htime, hv⟩ := commitBlocks_cold s h
  have hphase := commitPhase_safe (bphase.trans h) (bestop.trans he)
  have hcold : (phaseWrite .cold .commit (commitBlocks s)).line.phase = .cold := phaseWrite_phase _ _ _
  rw [hphase] at hline
  rw [commitProfile_log, hphase, hline, phaseWrite_phase]
  generalize phaseWrite .cold .commit (commitBlocks s) = cold at hlog htime hv hcold ⊢
  have hne : cold.line.phase ≠ .safe := by simp [hcold]
  have hstep : (phaseWrite .safe .estop cold).log =
      (logAppend (.phase .cold .safe .estop 0)
        (logAppend (.phase .unconfigured .cold .commit 0) s)).log := by
    rw [phaseWrite_log hne, hcold, hv]
    exact logAppend_log_congr _ hlog (by rw [htime, (logAppend_frame _ s).1])
  refine ⟨rfl, by rw [phaseWrite_line hne]; rfl, logAppend_log_congr _ hstep ?_⟩
  rw [(phaseWrite_frame .safe .estop cold).time, htime, (logAppend_frame _ _).1,
    (logAppend_frame _ s).1]

/-! ### The notices -/

theorem commitBlocks_ports (q : Port) : (commitBlocks s).port q = (changesReset s).port q := by
  obtain ⟨-, -, -, -, bports⟩ := commitBlocks_frame s
  exact congrArg (PerPort.get · q) bports

theorem commitUnits_levels : KeepsLevels s (commitUnits s) := by
  have hreset : KeepsLevels s (changesReset s) := abortChanges_levels s
  obtain ⟨-, hphase, -⟩ := commitPhase_keeps (commitBlocks s)
  obtain ⟨-, -, -, -, bports⟩ := commitBlocks_frame s
  have hafter : KeepsLevels (changesReset s) (commitPhase (commitBlocks s)) :=
    .after_eq bports hphase
  exact hreset.trans hafter

/-- CHANGE_DONE, raised by the abort, is pending still. -/
theorem commitProfile_pending : KeepsPending (changesReset s) (commitProfile p s) := by
  obtain ⟨-, -, hphase⟩ := commitPhase_keeps (commitBlocks s)
  obtain ⟨-, -, -, -, bports⟩ := commitBlocks_frame s
  have hunits : KeepsPending (changesReset s) (commitUnits s) := hphase.after_ports bports
  rw [commitProfile_eq]
  exact (hunits.trans (commitPorts_committed p s.prof.staged (commitUnits s)).1.pending).trans
    (settleConditions_pending _)

theorem commitProfile_levels :
    LevelBecomes .stall (s.motion.state == .still) s (commitProfile p s) ∧
      LevelBecomes .loadWarn (decide (s.prof.staged.loadWarn = 0)) s (commitProfile p s) ∧
      LevelBecomes .loadTrip (decide (s.prof.staged.loadTrip = 0)) s (commitProfile p s) := by
  obtain ⟨hports, -⟩ := commitPorts_committed p s.prof.staged (commitUnits s)
  have hblocks : SameBlocks (commitBlocks s) (commitPorts p s.prof.staged (commitUnits s)) :=
    ((SameBlocks.of_plant (commitPhase_keeps (commitBlocks s)).1).trans
      (.commitDetectors _ _)).trans (.of_ports hports)
  obtain ⟨bprof, -, bmotion, bload⟩ := commitBlocks_set s
  have hlevels : KeepsLevels s (commitPorts p s.prof.staged (commitUnits s)) :=
    (commitUnits_levels s).trans hports.levels
  have hprof : (commitPorts p s.prof.staged (commitUnits s)).prof.committed =
      some s.prof.staged := by rw [hblocks.prof, bprof]
  have hpeak : (commitPorts p s.prof.staged (commitUnits s)).load.peak = 0 := by
    rw [hblocks.peak, bload]
    rfl
  have hstate : (commitPorts p s.prof.staged (commitUnits s)).motion.state = s.motion.state := by
    rw [hblocks.motion, bmotion]
  obtain ⟨hstall, hwarn, htrip⟩ := settleConditions_levels _ hprof
  rw [hstate] at hstall
  rw [hpeak] at hwarn htrip
  simp only [Nat.le_zero_eq] at hwarn htrip
  exact ⟨hstall.of_keepsLevel (hlevels.keepsLevel rfl),
    hwarn.of_keepsLevel (hlevels.keepsLevel rfl), htrip.of_keepsLevel (hlevels.keepsLevel rfl)⟩

/-- The ports have the table's WATERMARKs, and LOG_WATERMARK measures them. -/
theorem commitProfile_port (q : Port) :
    ((commitProfile p s).port q).link =
        { (s.port q).link with watermark := (s.prof.staged.ports.get q).watermark } ∧
      Notice.logWatermark.inSet ((commitProfile p s).port q).holding =
        decide ((s.prof.staged.ports.get q).watermark ≤ (commitProfile p s).log.unread.get q) := by
  obtain ⟨hports, hmarks, -⟩ := commitPorts_committed p s.prof.staged (commitUnits s)
  obtain ⟨hsettled, -⟩ := settleConditions_keeps (commitPorts p s.prof.staged (commitUnits s))
  obtain ⟨-, -, -, -, -, -, -, -, -, -, -, -, clink⟩ := changesReset_frame s
  have hunits : ((commitUnits s).port q).link = (s.port q).link := by
    have hphase := (commitPhase_keeps (commitBlocks s)).1.link q
    rw [commitBlocks_ports, clink] at hphase
    exact hphase
  have hcurrent := settleConditions_marks _ hmarks q
  rw [watermark_of_link (hsettled.link q), hports.watermark] at hcurrent
  rw [commitProfile_eq]
  exact ⟨(hsettled.link q).trans ((hports.link q).trans (by rw [hunits])), hcurrent⟩

end

/-! ### The request -/

theorem commits_iff (f : Phase) :
    f.commits = true ↔ f = .unconfigured ∨ f = .cold ∨ f = .safe := by
  cases f <;> simp [Phase.commits]

section
variable {p q : Port} {u : State} {id : Nat}

theorem handleProfileCommit_phase (h : ¬u.line.phase.commits = true) :
    handleProfileCommit p [] u = .code u .refusedPhase := if_neg h

theorem handleProfileCommit_free (h : u.line.phase.commits = true) (hh : u.prof.holder = none) :
    handleProfileCommit p [] u = .code u .refusedState := by
  simp only [handleProfileCommit, h, hh, if_true]

theorem handleProfileCommit_held (h : u.line.phase.commits = true) (hq : q ≠ p)
    (hh : u.prof.holder = some q) : handleProfileCommit p [] u = .code u .refusedBusy := by
  simp only [handleProfileCommit, h, hh, if_true, if_neg hq]

theorem handleProfileCommit_failed (h : u.line.phase.commits = true)
    (hh : u.prof.holder = some p) (hf : u.prof.staged.firstFailure = some id) :
    handleProfileCommit p [] u =
      { state := u.setProf
          { u.prof with code := .invalid, errorItem := some (BitVec.ofNat 8 id) }
        payload := [0x11] ++ u8 id ++ [0x00, 0x03] } := by
  simp only [handleProfileCommit, h, hh, if_true, hf]
  simp [codeOnly, Result.code, u8, ProfileCode.code]

theorem handleProfileCommit_taken (h : u.line.phase.commits = true)
    (hh : u.prof.holder = some p) (hf : u.prof.staged.firstFailure = none)
    (hc : (commitProfile p u).prof.code = .valid) :
    handleProfileCommit p [] u =
      { state := commitProfile p u
        payload := [0x00, 0x00] ++ u8 u.prof.staged.ringLength ++ [0x02] } := by
  simp only [handleProfileCommit, h, hh, if_true, hf, hc]
  simp [codeOnly, Result.code, u8, ProfileCode.code]

end

/-! ### The statement -/

theorem rebuiltRecords_get {ambient : Int} {n q : Nat} (h : q < n) :
    (rebuiltRecords ambient n)[q]? = some
      { seq := BitVec.ofNat 16 (n - 1 - q), kind := .blank, solvent := 0,
        heat := some { temp := ambient, peak := ambient }, stranded := false, tag := none } := by
  have hlen : q < (rebuiltRecords ambient n).length := by simpa [rebuiltRecords] using h
  have hget := List.getElem?_eq_getElem hlen
  rw [hget, (rebuiltRecords_getElem? hget).2]

/-- Settles O58: the tests in turn, the search of the failing item, and the commit part by part. -/
theorem commitSetsEveryBlock : Obligations.CommitSetsEveryBlock := by
  intro p s
  refine ⟨fun h => ?_, fun h hh => ?_, fun q h hq hh => ?_, fun id h hh hf => ?_,
    fun hx => ⟨?_, fun id => ?_⟩, fun h hh hf => ⟨commitProfile p (frameTaken p s), ?_, ?_⟩⟩
  · exact exec_refuses (r := .profileCommit) (code := .refusedPhase) rfl rfl
      (handleProfileCommit_phase (mt (commits_iff _).mp h))
  · exact exec_refuses (r := .profileCommit) (code := .refusedState) rfl rfl
      (handleProfileCommit_free ((commits_iff _).mpr h) hh)
  · exact exec_refuses (r := .profileCommit) (code := .refusedBusy) rfl rfl
      (handleProfileCommit_held ((commits_iff _).mpr h) hq hh)
  · exact exec_answers (r := .profileCommit) rfl rfl
      (handleProfileCommit_failed ((commits_iff _).mpr h) hh hf)
  · rw [firstFailure_eq_none_iff]
    exact forall_congr' (itemCheck_iff hx)
  · rw [firstFailure_eq_some_iff, ← Bool.not_eq_true, itemCheck_iff hx]
    exact and_congr_right fun _ => forall₂_congr fun k _ => itemCheck_iff hx k
  · refine exec_answers (r := .profileCommit) rfl rfl
      (handleProfileCommit_taken ((commits_iff _).mpr h) hh hf ?_)
    rw [(commitProfile_blocks p _).prof, (commitBlocks_set _).1]
  · generalize frameTaken p s = u
    have hblocks := commitProfile_blocks p u
    obtain ⟨bprof, bring, bmotion, bload⟩ := commitBlocks_set u
    obtain ⟨hline, harb, -⟩ := commitProfile_units p u
    obtain ⟨hlist, hflight, harrival, hout, hnoticed⟩ := changesReset_arb u
    have hcounts : LineCommitted u.prof.staged (commitProfile p u).line :=
      hline ▸ commitPhase_lineCommitted (commitBlocks_line u).1
    obtain ⟨hsets, hexhaust, hgrant, hfill, hdrain, hrun, hmark, hready⟩ := hcounts
    obtain ⟨henv, hduty, hidle⟩ := commitProfile_envelope p u
    obtain ⟨hstall, hwarn, htrip⟩ := commitProfile_levels p u
    have hprof := hblocks.prof.trans bprof
    have hring := hblocks.ring.trans bring
    have hmotion := hblocks.motion.trans bmotion
    have htime := hblocks.time.trans (commitBlocks_frame u).1
    rw [harb, hring, hmotion, htime, hblocks.flow, hblocks.loads, hblocks.peak, hblocks.peakZone,
      hblocks.tripCount, hblocks.fReq, hblocks.baseDuty, bload]
    refine ⟨hprof, hlist, hflight, harrival, hout.congr rfl (congrArg Arbiter.outcomes harb),
      hnoticed.congr rfl (commitProfile_pending p u), by simp [rebuildRing, rebuiltRecords],
      fun q hq => rebuiltRecords_get hq, rfl, rfl, rfl, rfl, rfl, rfl, rfl, rfl, rfl, rfl, rfl, rfl,
      rfl, rfl, hduty, henv, hidle, hsets, hexhaust, hgrant, hfill, hdrain, hrun, hmark, hready,
      fun hu => ?_, fun hu he => ?_, fun hu he => ?_, commitProfile_det p u, commitProfile_pb p u,
      rfl, fun hu => ?_, fun hu he => ?_, fun hu he => ?_, hstall, hwarn, htrip,
      commitProfile_port p u⟩
    · obtain ⟨hphase, hcause, -⟩ := commitProfile_configured p u hu
      exact ⟨hphase, hcause⟩
    · obtain ⟨hphase, hcause, -⟩ := commitProfile_cold p u hu he
      exact ⟨hphase, hcause⟩
    · obtain ⟨hphase, hcause, -⟩ := commitProfile_safe p u hu he
      exact ⟨hphase, hcause⟩
    · obtain ⟨-, -, hlog⟩ := commitProfile_configured p u hu
      exact hlog
    · obtain ⟨-, -, hlog⟩ := commitProfile_cold p u hu he
      exact hlog
    · obtain ⟨-, -, hlog⟩ := commitProfile_safe p u hu he
      exact hlog

end Sys2Proof.Machine
end
